-- ==== Sys2Proof/Word.lean ====
section
/-! DEFINITION. The words of the part: bytes on its two links, its 16-bit and 32-bit counts. -/

namespace Sys2Proof

/-- A byte of a link frame or of a segment frame body. -/
abbrev Byte := BitVec 8

/-- A 16-bit field: NUM, sequence numbers, edge and update counts, the frame check register. -/
abbrev Word16 := BitVec 16

/-- A 32-bit wrapping count: cycle number, skip total, absent tally, stray tally. -/
abbrev Word32 := BitVec 32

end Sys2Proof
end

