-- ==== Sys2Proof/Machine/Names.lean ====
section
/-! DEFINITION. The part's fixed vocabulary: the enumerations of R191 and the names the rules use. The byte codes are in
Machine/Operands.lean. -/

namespace Sys2Proof

/-- R1: the scheduler's modes. -/
inductive Mode where
  | config | run | stopping
  deriving DecidableEq, Repr

/-- R2: admission policy. -/
inductive Admission where
  | closed | opened
  deriving DecidableEq, Repr

/-- R2: segment bit rate in kbit/s. -/
inductive BitRate where
  | k40 | k160
  deriving DecidableEq, Repr

/-- R47: roster states. -/
inductive RosterState where
  | vacant | active | held | lost | barred
  deriving DecidableEq, Repr

/-- R71: qualities of a cached point. -/
inductive Quality where
  | offline | noSource | never | good | stale | badLength
  deriving DecidableEq, Repr

/-- R75: watch modes. -/
inductive WatchMode where
  | off | change | quality
  deriving DecidableEq, Repr

/-- R12: the two slot banks. -/
inductive BankName where
  | active | shadow
  deriving DecidableEq, Repr

/-- R104: message classes. -/
inductive MessageClass where
  | normal | urgent
  deriving DecidableEq, Repr

/-- R103: message states. -/
inductive MessageState where
  | queued | inFlight
  deriving DecidableEq, Repr

/-- Section 6.4: message outcomes. -/
inductive MessageOutcome where
  | delivered | noReply | deviceGone | cancelled | aborted
  deriving DecidableEq, Repr

/-- R143: levels of a local line. -/
inductive Level where
  | low | high
  deriving DecidableEq, Repr

/-- R143: safe levels of an output line. -/
inductive SafeLevel where
  | low | high | hold
  deriving DecidableEq, Repr

/-- R143, R146: edge settings of an INPUT line. -/
inductive EdgeSetting where
  | rise | fall | both
  deriving DecidableEq, Repr

/-- R146: an edge. -/
inductive Edge where
  | rise | fall
  deriving DecidableEq, Repr

/-- R139: the six conditions, in condition-code order. -/
inductive ConditionName where
  | babble | noEcho | foreign | cycleLate | reportLoss | hostSilent
  deriving DecidableEq, Repr

/-- R21: skip reasons. -/
inductive SkipReason where
  | late | absent | overrun | collision | echoLost | abandoned
  deriving DecidableEq, Repr

/-- R135: causes of the START report. -/
inductive StartCause where
  | power | pin | requested
  deriving DecidableEq, Repr

/-- R188: a hard reset comes from power-up or from the RESET pin. -/
inductive HardCause where
  | power | pin
  deriving DecidableEq, Repr

/-- R52: why an entry is HELD. -/
inductive HeldReason where
  | unknown | mismatch
  deriving DecidableEq, Repr

/-- R58, R61: why an ACTIVE entry was lost. -/
inductive LostCause where
  | silent | barred
  deriving DecidableEq, Repr

/-- R150: why a trigger was dropped. -/
inductive DropReason where
  | absent | lost
  deriving DecidableEq, Repr

/-- R89: which of FETCH and NORMAL is offered first. -/
inductive Alternation where
  | fetch | normal
  deriving DecidableEq, Repr

/-- R73: the kinds of reference to a point, in the order WITHDRAW names them. -/
inductive ReferenceKind where
  | activeSlot | shadowSlot | trigger | mirror
  deriving DecidableEq, Repr

/-- R42: segment frame kinds. -/
inductive FrameKind where
  | mark | cue | pub | roll | answer | fetch | note | send | reply
  deriving DecidableEq, Repr

/-- R137: the 21 report kinds, in code order (R195). -/
inductive ReportKind where
  | start | messageOutcome | overflow | deviceLost | deviceHeld | duplicateIdentity | lineFault
  | foreignTraffic | stopped | swapDone | swapDiscarded | cycleLate | deviceJoined | addressClash
  | note | lineRestored | slotsSkipped | deviceInverted | pointChanged | lineEdge | triggerDropped
  deriving DecidableEq, Repr

/-- R182: result codes. -/
inductive Result where
  | ok | unknownRequest | badLength | badArgument | wrongMode | wrongState | busy | full | exists_
  | notFound | referenced | notPresent | tagInUse | tooLate
  deriving DecidableEq, Repr

/-- R172: link rates in baud. -/
inductive LinkRate where
  | b115200 | b230400 | b460800 | b921600
  deriving DecidableEq, Repr

/-- R157: the symbols of the segment, one a bit time. -/
inductive Symbol where
  | one | zero | vPlus | vMinus
  deriving DecidableEq, Repr

/-- R160: line activity. -/
inductive Activity where
  | active | quiet
  deriving DecidableEq, Repr

/-- R166: the echo verdicts. -/
inductive EchoVerdict where
  | sound | unsound | noEcho
  deriving DecidableEq, Repr

/-- R175: what makes a format error while a frame is being assembled: a byte whose stop bit is read low, or a LEN byte
out of range. -/
inductive LinkFault where
  | framing
  | length (len : Byte)
  deriving DecidableEq, Repr

/-- Section 10.7: the requests of the summary table, by owning chapter. -/
inductive RequestName where
  | configure | readConfig | start | stop | addSlot | deleteSlot | clearShadow | copyActive | readSlots
  | swap | cancelSwap | admitStation | bar | unbar | provision | forget | readDevice | listDevices | declare
  | withdraw | readPoint | watch | send | cancel | listMessages | ackReports | resendReports | setLevel
  | readConditions | clearConditions | setLine | writeLine | readLines | identify | status | setLinkRate
  | restart
  deriving DecidableEq, Repr

end Sys2Proof
end

