-- ==== Sys2Proof/Syntax.lean ====
section
/-! DEFINITION. The commands of the part: one constructor for each row of spec/opcode_table.json.

A request row carries what its frame carries: NUM and the raw payload bytes (R174, R193; UNKNOWN_REQUEST also its CODE).
An event row carries what the happening shows the part: a byte, the symbols read, a line and its level, a slot's offset,
a cause. Rows whose happening is wholly determined by the state carry nothing. -/

namespace Sys2Proof

inductive Instr where
  -- Chapter 1: the segment cycle
  | configure (num : Word16) (payload : List Byte)
  | readConfig (num : Word16) (payload : List Byte)
  | start (num : Word16) (payload : List Byte)
  | stop (num : Word16) (payload : List Byte)
  | addSlot (num : Word16) (payload : List Byte)
  | deleteSlot (num : Word16) (payload : List Byte)
  | clearShadow (num : Word16) (payload : List Byte)
  | copyActive (num : Word16) (payload : List Byte)
  | readSlots (num : Word16) (payload : List Byte)
  | swap (num : Word16) (payload : List Byte)
  | cancelSwap (num : Word16) (payload : List Byte)
  -- Chapter 3: the station roster
  | admitStation (num : Word16) (payload : List Byte)
  | bar (num : Word16) (payload : List Byte)
  | unbar (num : Word16) (payload : List Byte)
  | provision (num : Word16) (payload : List Byte)
  | forget (num : Word16) (payload : List Byte)
  | readDevice (num : Word16) (payload : List Byte)
  | listDevices (num : Word16) (payload : List Byte)
  -- Chapter 4: the point cache
  | declare (num : Word16) (payload : List Byte)
  | withdraw (num : Word16) (payload : List Byte)
  | readPoint (num : Word16) (payload : List Byte)
  | watch (num : Word16) (payload : List Byte)
  -- Chapter 6: outbound messages
  | send (num : Word16) (payload : List Byte)
  | cancel (num : Word16) (payload : List Byte)
  | listMessages (num : Word16) (payload : List Byte)
  -- Chapter 7: reports and conditions
  | ackReports (num : Word16) (payload : List Byte)
  | resendReports (num : Word16) (payload : List Byte)
  | setLevel (num : Word16) (payload : List Byte)
  | readConditions (num : Word16) (payload : List Byte)
  | clearConditions (num : Word16) (payload : List Byte)
  -- Chapter 8: local lines
  | setLine (num : Word16) (payload : List Byte)
  | writeLine (num : Word16) (payload : List Byte)
  | readLines (num : Word16) (payload : List Byte)
  -- Chapter 10: the host link
  | identify (num : Word16) (payload : List Byte)
  | status (num : Word16) (payload : List Byte)
  | setLinkRate (num : Word16) (payload : List Byte)
  | restart (num : Word16) (payload : List Byte)
  | unknownRequest (code : Byte) (num : Word16) (payload : List Byte)
  | linkFrameReceived
  | linkFormatError (cause : LinkFault)
  | interByteTimeout
  | linkFrameSent
  | reportTaken
  | linkRateChange
  | softReset
  | resetPinAsserted
  | hardReset (cause : HardCause)
  | hostSilentTimeout
  -- the cycle's events
  | boundary
  | markStart
  | slotDue (offset : Nat)
  | slotStart
  | slotLate (offset : Nat)
  | stoppingEnd
  -- the transaction's and the segment line's events
  | transmitStart
  | waitingLineTimeout
  | echoVerdict
  | answerWindowExpired
  | firstTransition
  | segmentFrameReceived (symbols : List Symbol)
  | startDelimiterTimeout
  | lineQuiet
  | turnaroundMet
  | foreignTimeExpiry
  | gapConsideration
  | babbleDetected
  | babbleEnd
  -- the local lines' events
  | localLinePinChange (line : Fin 8) (level : Level)
  | inputFilterExpired (line : Fin 8)
  | startDelimiterCompleted (symbols : List Symbol)
  | linkByteReceived (byte : Byte)
  deriving DecidableEq, Repr

end Sys2Proof
end

