-- ==== Sys2Proof/Decode.lean ====
section
/-! DEFINITION. The decoder over the rows of spec/opcode_table.json that give bits. No row gives any: a command reaches the
part as a link frame (R174, R193) or as a happening, never as a word of an opcode table. -/

namespace Sys2Proof

/-- The command a word of nbits bits spells by the table's bits: none, for the table gives no row any bits. -/
def decodeTableWord (_nbits _w : Nat) : Option Instr := none

end Sys2Proof
end

