-- ==== Sys2Proof/Config.lean ====
section
/-! DEFINITION. What the part fixes: clock ratios (12.7), capacities (R185) and line limits. The spec leaves no
result VALUE open after which the part goes on, so there is no free value here (log 24). -/

namespace Sys2Proof.Config

/-- Clock periods in a second (12.7). -/
abbrev clockHz : Nat := 10240000

/-- Clock periods in a tick: 100 µs at 10.24 MHz (12.7). -/
abbrev tickClocks : Nat := 1024

/-- Clock periods in a millisecond at 10.24 MHz (12.7). -/
abbrev msClocks : Nat := 10240

/-- R8: slots per bank. -/
abbrev slotsPerBank : Nat := 64

/-- R46: station addresses 1..62. -/
abbrev stationCount : Nat := 62

/-- R42: the address of all stations, the target of MARK. -/
abbrev allStations : Nat := 63

/-- R70: point records. -/
abbrev pointCapacity : Nat := 96

/-- R103: held messages. -/
abbrev messageCapacity : Nat := 16

/-- R124: places of the report queue. -/
abbrev reportPlaces : Nat := 32

/-- R130: SENT reports not yet acknowledged. -/
abbrev reportWindow : Nat := 8

/-- R177: places of the receive buffer. -/
abbrev bufferPlaces : Nat := 2

/-- R158, R160: bit times without a transition after which the line is QUIET. -/
abbrev quietBits : Nat := 4

/-- R160: bit times of the turnaround. -/
abbrev turnaroundBits : Nat := 8

/-- R162: bit times from the first transition within which the start delimiter is completed. -/
abbrev delimiterLimitBits : Nat := 32

/-- R28: bit times a record may stay in WAITING_LINE. -/
abbrev waitingLimitBits : Nat := 1024

/-- R168: bit times of activity that make a babble fault. -/
abbrev babbleBits : Nat := 1024

/-- R169: bit times without a transition that end a babble fault. -/
abbrev babbleEndBits : Nat := 32

/-- R40: milliseconds without foreign traffic after which FOREIGN expires in CONFIG and STOPPING. -/
abbrev foreignExpiryMs : Nat := 100

/-- R174: the largest link payload, in bytes. -/
abbrev maxPayload : Nat := 192

/-- R174: SYNC. -/
abbrev sync : Byte := 0xC3

/-- R185: maker code of the part. -/
abbrev makerCode : Nat := 0x0E21

/-- R185: part code. -/
abbrev partCode : Nat := 2610

/-- R185: revision. -/
abbrev revision : Nat := 1

end Sys2Proof.Config
end

