-- ==== Sys2Proof/Machine/State.lean ====
section
/-! DEFINITION. The state of the part as plain data, block by block as 00_scope.md lists the twelve blocks, with the
values after reset (R25, R45, R68, R88, R89, R122, R135, R142, R156, R171, R188). INVENTORY.md lists every field with
its rule. Instants are clock periods of the model's clock `now` (log 1). -/

namespace Sys2Proof.Machine

/-- The faults of the part: none. Every command has an effect or none (log 24). -/
inductive Fault where
  /-- Raised by nobody; safe. -/
  | unused
  deriving DecidableEq, Repr

/-- The reasons a command can be turned away by the model. -/
inductive Refusal where
  /-- A row of the opcode table without a meaning yet. Raised by exec's arm of that row alone, and no arm does; safe. -/
  | notModelled (mnemonic : String)
  deriving DecidableEq, Repr

/-- Identity of a station: maker code, model code, serial (R46). -/
structure Identity where
  maker : Word16
  model : Word16
  serial : Word32
  deriving DecidableEq, Repr

/-- A point key: station address 1..62 and point number 0..15 (R70). -/
structure Key where
  address : Nat
  number : Nat
  deriving DecidableEq, Repr

/-! ## Cycle scheduler (chapter 1) -/

/-- A slot record (R8). -/
structure Slot where
  offset : Nat
  address : Nat
  number : Nat
  divisor : Nat
  phase : Nat
  deriving DecidableEq, Repr

/-- The eight cycle parameters (R2), in parameter-number order. -/
structure Params where
  period : Nat
  tolerance : Nat
  window : Nat
  rate : BitRate
  missLimit : Nat
  probes : Nat
  admission : Admission
  holdTime : Nat
  deriving DecidableEq, Repr

/-- R2: the defaults. -/
def Params.defaults : Params :=
  { period := 1000, tolerance := 10, window := 64, rate := .k40, missLimit := 3, probes := 1
    admission := .closed, holdTime := 0 }

/-- R21: a skip that enters the skip summary: the slot's offset, the reason, and the instant at which it is recorded. -/
structure Skip where
  offset : Nat
  reason : SkipReason
  instant : Nat
  deriving DecidableEq, Repr

/-- R21: the skip summary of a cycle. -/
structure SkipSummary where
  count : Nat
  /-- The first skip: the earliest, and at one instant the one of the lowest offset. -/
  first : Option Skip
  /-- The first of the skips with reason COLLISION, ECHO_LOST or ABANDONED: the first of all if the MARK never goes out and
  the LATE ones are recorded as OVERRUN at the boundary (R19, log 11). -/
  firstCue : Option Skip
  deriving DecidableEq, Repr

/-- The empty skip summary. -/
def SkipSummary.empty : SkipSummary := { count := 0, first := none, firstCue := none }

structure Scheduler where
  mode : Mode
  cycle : Word32
  /-- Nominal start of the current cycle (R16); kept through STOPPING for R147. -/
  cycleStart : Nat
  /-- The active bank, ascending offset. -/
  active : List Slot
  /-- The shadow bank, ascending offset. -/
  shadow : List Slot
  swapPending : Bool
  summary : SkipSummary
  skipTotal : Word32
  absentTally : Word32
  params : Params
  /-- A MARK waits for the line (R18). -/
  markWaiting : Bool
  /-- Offsets of the slots waiting for the line, ascending (R20). -/
  waiting : List Nat
  /-- Offsets whose nominal time has been taken in this cycle (log 12). -/
  presented : List Nat
  /-- The instant the part entered CONFIG (R147). -/
  configSince : Nat
  deriving DecidableEq, Repr

/-- R25. -/
def Scheduler.reset (now : Nat) : Scheduler :=
  { mode := .config, cycle := 0, cycleStart := now, active := [], shadow := [], swapPending := false
    summary := .empty, skipTotal := 0, absentTally := 0, params := .defaults, markWaiting := false
    waiting := [], presented := [], configSince := now }

/-! ## Transaction unit (chapter 2) -/

/-- R26: the work a transaction serves, with what its owner needs at the outcome: the MARK's cycle number and nominal
boundary (R19), the slot's offset (R21), the trigger's line (R149), the message's tag (R107). -/
inductive Origin where
  | mark (cycle : Word32) (nominal : Nat)
  | slot (offset : Nat)
  | trigger (line : Fin 8)
  | outbound (tag : Byte)
  | fetch
  | probe
  deriving DecidableEq, Repr

/-- R26, R27: what a frame must be to count as the answer. -/
inductive Expected where
  | pub (address number : Nat)
  | answer (address : Nat)
  | note (address : Nat)
  | reply (address : Nat) (tag : Byte)
  deriving DecidableEq, Repr

/-- R26: how far a transaction has gone, with the instant each phase needs. -/
inductive Phase where
  | waitingLine (since : Nat)
  | sending (since : Nat)
  | awaiting (deadline : Nat)
  | receiving
  | ended
  deriving DecidableEq, Repr

/-- R26: the transaction record. -/
structure Record where
  origin : Origin
  kind : FrameKind
  target : Nat
  body : List Byte
  expected : Option Expected
  phase : Phase
  /-- R34: a babble fault caught the record in SENDING; it ends ABANDONED when the transmitter returns to IDLE. -/
  abandonAtEnd : Bool
  deriving DecidableEq, Repr

structure TransactionUnit where
  record : Option Record
  stray : Word32
  seenThisCycle : Bool
  lastForeign : Option Nat
  deriving DecidableEq, Repr

/-- R45. -/
def TransactionUnit.reset : TransactionUnit :=
  { record := none, stray := 0, seenThisCycle := false, lastForeign := none }

/-! ## Roster (chapter 3) -/

/-- R46: a roster entry. -/
structure RosterEntry where
  state : RosterState
  expected : Option Identity
  seen : Option Identity
  miss : Nat
  clash : Nat
  inverted : Bool
  lastHeard : Option Word32
  deriving DecidableEq, Repr

/-- R68: an entry after a reset. -/
def RosterEntry.vacant : RosterEntry :=
  { state := .vacant, expected := none, seen := none, miss := 0, clash := 0, inverted := false, lastHeard := none }

structure Roster where
  /-- The entry of address a stands at index a - 1. -/
  entries : Vector RosterEntry 62
  probePointer : Nat
  deriving DecidableEq, Repr

/-- R68. -/
def Roster.reset : Roster := { entries := Vector.replicate 62 .vacant, probePointer := 1 }

/-! ## Point cache (chapter 4) -/

/-- R70: a point record. -/
structure Point where
  key : Key
  length : Nat
  value : List Byte
  status : Byte
  quality : Quality
  age : Nat
  staleLimit : Nat
  updates : Word16
  lastUpdate : Option Word32
  watch : WatchMode
  deriving DecidableEq, Repr

/-! ## Gap arbiter (chapter 5) -/

/-- R89. -/
structure GapArbiter where
  alternation : Alternation
  probesStarted : Nat
  deriving DecidableEq, Repr

/-- R89: after a reset. -/
def GapArbiter.reset : GapArbiter := { alternation := .fetch, probesStarted := 0 }

/-! ## Outbound queue (chapter 6) -/

/-- R104: a held message. -/
structure Message where
  tag : Byte
  destination : Nat
  cls : MessageClass
  payload : List Byte
  limit : Nat
  made : Nat
  state : MessageState
  onLine : Bool
  gone : Bool
  deriving DecidableEq, Repr

/-! ## Report queue and conditions (chapter 7) -/

/-- R123: what a report entry holds in either state. -/
structure Report where
  kind : ReportKind
  level : Nat
  body : List Byte
  reserved : Bool
  deriving DecidableEq, Repr

/-- R123, R129, R132: a SENT entry. -/
structure SentReport where
  report : Report
  seq : Word16
  resendDue : Bool
  deriving DecidableEq, Repr

structure ReportQueue where
  /-- UNSENT entries, in joining order. -/
  unsent : List Report
  /-- SENT entries, in order of first transmission (log 20). -/
  sent : List SentReport
  reservations : Nat
  counter : Word16
  /-- R133: the level of each kind, in code order. -/
  levels : Vector Nat 21
  lossTally : Nat
  deriving DecidableEq, Repr

/-- R137: the default levels, in code order. -/
def ReportQueue.defaultLevels : Vector Nat 21 :=
  #v[3, 3, 3, 3, 3, 3, 3, 3, 2, 2, 2, 2, 2, 2, 2, 2, 1, 1, 1, 1, 1]

/-- R191: code of a START cause. -/
def startCauseCode : StartCause → Byte
  | .power => 0
  | .pin => 1
  | .requested => 2

/-- R135: the queue after a reset holds the START report alone. -/
def ReportQueue.reset (cause : StartCause) : ReportQueue :=
  { unsent := [{ kind := .start, level := 3, body := [startCauseCode cause], reserved := false }]
    sent := [], reservations := 0, counter := 0, levels := defaultLevels, lossTally := 0 }

/-- R138: a condition's two flags. -/
structure Condition where
  active : Bool
  latched : Bool
  deriving DecidableEq, Repr

/-- A condition with both flags clear. -/
def Condition.clear : Condition := { active := false, latched := false }

/-- R138: the condition set. -/
structure ConditionSet where
  babble : Condition
  noEcho : Condition
  foreign : Condition
  cycleLate : Condition
  reportLoss : Condition
  hostSilent : Condition
  deriving DecidableEq, Repr

/-- R142. -/
def ConditionSet.reset : ConditionSet :=
  { babble := .clear, noEcho := .clear, foreign := .clear, cycleLate := .clear, reportLoss := .clear
    hostSilent := .clear }

/-! ## Local lines (chapter 8) -/

/-- R143: the fields of an INPUT line. -/
structure InputLine where
  edge : EdgeSetting
  filter : Nat
  filtered : Level
  edgeCount : Word16
  reportEdge : Bool
  binding : Option Key
  pending : Bool
  cueOnLine : Bool
  /-- R146: since when the pin level has differed from the filtered level. -/
  differsSince : Option Nat
  deriving DecidableEq, Repr

/-- R143: the fields of an OUTPUT_HOST line. -/
structure HostLine where
  safe : SafeLevel
  current : Level
  held : Level
  forcedSafe : Bool
  deriving DecidableEq, Repr

/-- R143: the fields of an OUTPUT_MIRROR line. -/
structure MirrorLine where
  safe : SafeLevel
  current : Level
  held : Level
  binding : Key
  byteIndex : Nat
  bitIndex : Nat
  invert : Bool
  deriving DecidableEq, Repr

/-- R143: a line record. -/
inductive LineRecord where
  | off
  | input (l : InputLine)
  | outputHost (l : HostLine)
  | outputMirror (l : MirrorLine)
  deriving DecidableEq, Repr

structure LocalLines where
  records : Vector LineRecord 8
  /-- The levels at the pins L0..L7 (log 7). -/
  pins : Vector Level 8
  deriving DecidableEq, Repr

/-- R156, keeping the levels found at the pins. -/
def LocalLines.reset (pins : Vector Level 8) : LocalLines :=
  { records := Vector.replicate 8 .off, pins := pins }

/-! ## Segment line unit (chapter 9) -/

/-- The frame a receiver is reading: its first transition's instant, whether it is marked as echo (R161), the symbols
read of it, the level of the last half-bit read and the instant of the last transition among them (R157, R160). -/
structure FrameInProgress where
  start : Nat
  echo : Bool
  count : Nat
  lastHalf : Bool
  lastTransition : Nat
  deriving DecidableEq, Repr

/-- R161-R164: the receiver's states. CLOSING lasts no time and is passed through within a step (log 21). -/
inductive Receiver where
  | quiet
  | locking (frame : FrameInProgress) (clean : Nat) (last : Option Bool)
  | seeking (frame : FrameInProgress) (last : Bool) (delimiter : List Symbol)
  | body (frame : FrameInProgress) (inverted : Bool) (bytes : List Byte) (bits : List Bool) (tail : List Symbol)
  | drain
  deriving DecidableEq, Repr

/-- R164: a receiver's verdict on a frame; GOOD comes with the body and whether the frame was inverted. -/
inductive Verdict where
  | good (body : List Byte) (inverted : Bool)
  | checkError
  | runt
  | broken
  | tooLong
  | garbled
  deriving DecidableEq, Repr

/-- R165: the transmitter; which part of the frame it sends follows from the bit times gone since it left IDLE. -/
inductive Transmitter where
  | idle
  | sending (body : List Byte) (since : Nat)
  deriving DecidableEq, Repr

structure SegmentLine where
  activity : Activity
  lastTransition : Nat
  lastEndDelimiter : Nat
  /-- R168: when the line last became ACTIVE. -/
  activeSince : Nat
  babbleFault : Bool
  receiver : Receiver
  transmitter : Transmitter
  /-- R166: the verdict on the echo of the frame being sent, once its start delimiter has been completed (log 10). -/
  echo : Option Verdict
  /-- The echo verdict of the part's last own frame; none before the first one since a reset (log 35). -/
  lastEcho : Option EchoVerdict
  deriving DecidableEq, Repr

/-- R171. DESIGN CHOICE, unsafe: R171 gives no value for the echo verdict of the last own frame; none is taken (log 35). -/
def SegmentLine.reset (now : Nat) : SegmentLine :=
  { activity := .active, lastTransition := now, lastEndDelimiter := now, activeSince := now
    babbleFault := false, receiver := .quiet, transmitter := .idle, echo := none, lastEcho := none }

/-! ## Host link (chapter 10) -/

/-- R174: a frame on the link, less SYNC, LEN and CRC. -/
structure LinkFrame where
  cls : Byte
  code : Byte
  num : Word16
  payload : List Byte
  deriving DecidableEq, Repr

/-- R176: a valid request frame in the receive buffer. -/
structure RequestFrame where
  code : Byte
  num : Word16
  payload : List Byte
  deriving DecidableEq, Repr

/-- R175: the receive assembler. `assembling bs` has taken SYNC and then bs, from LEN on; `complete bs` holds a whole frame
from LEN through the CRC, to be judged (R176). -/
inductive Assembler where
  | hunting
  | assembling (bytes : List Byte)
  | complete (bytes : List Byte)
  deriving DecidableEq, Repr

/-- R180: the last-request record. -/
structure LastRequest where
  code : Byte
  num : Word16
  response : LinkFrame
  deriving DecidableEq, Repr

structure HostLink where
  rate : LinkRate
  assembler : Assembler
  lastByteAt : Nat
  buffer : List RequestFrame
  lastRequest : Option LastRequest
  waiting : Option LinkFrame
  sending : Option LinkFrame
  /-- R172, R183: when the frame being sent began on TXD; it means nothing while none is. -/
  sendingSince : Nat
  timeoutTally : Nat
  crcTally : Nat
  formatTally : Nat
  overrunTally : Nat
  /-- R184: when the host-silence timer was last restarted. -/
  silenceStart : Nat
  /-- R173: the new rate, until the response has left TXD. -/
  newRate : Option LinkRate
  /-- R187: a reset follows when the response has left TXD. -/
  restartDue : Bool
  deriving DecidableEq, Repr

/-- R188. -/
def HostLink.reset (rate : LinkRate) (now : Nat) : HostLink :=
  { rate := rate, assembler := .hunting, lastByteAt := now, buffer := [], lastRequest := none, waiting := none
    sending := none, sendingSince := now, timeoutTally := 0, crcTally := 0, formatTally := 0, overrunTally := 0, silenceStart := now
    newRate := none, restartDue := false }

/-! ## The whole part -/

/-- The whole part, and the queue of the commands that wait. -/
structure State where
  /-- The present instant in clock periods: the model's clock (log 1). -/
  now : Nat
  /-- The RESET pin is held asserted (R188). -/
  inReset : Bool
  sched : Scheduler
  txn : TransactionUnit
  roster : Roster
  points : List Point
  gap : GapArbiter
  outbound : List Message
  attention : List Nat
  reports : ReportQueue
  conds : ConditionSet
  lines : LocalLines
  seg : SegmentLine
  link : HostLink
  /-- The commands that wait, first in first out: the model's own. -/
  pending : List Instr
  deriving DecidableEq, Repr

/-- The part right after the hard reset of power-up (R188, log 6). -/
def State.reset : State :=
  { now := 0, inReset := false, sched := .reset 0, txn := .reset, roster := .reset, points := [], gap := .reset
    outbound := [], attention := [], reports := .reset .power, conds := .reset
    lines := .reset (Vector.replicate 8 .low), seg := .reset 0, link := .reset .b115200 0, pending := [] }

/-! ## One update per field -/

/-- Replace `now`. -/
def State.setNow (s : State) (x : Nat) : State := { s with now := x }

/-- Replace `inReset`. -/
def State.setInReset (s : State) (x : Bool) : State := { s with inReset := x }

/-- Replace `sched`. -/
def State.setSched (s : State) (x : Scheduler) : State := { s with sched := x }

/-- Replace `txn`. -/
def State.setTxn (s : State) (x : TransactionUnit) : State := { s with txn := x }

/-- Replace `roster`. -/
def State.setRoster (s : State) (x : Roster) : State := { s with roster := x }

/-- Replace `points`. -/
def State.setPoints (s : State) (x : List Point) : State := { s with points := x }

/-- Replace `gap`. -/
def State.setGap (s : State) (x : GapArbiter) : State := { s with gap := x }

/-- Replace `outbound`. -/
def State.setOutbound (s : State) (x : List Message) : State := { s with outbound := x }

/-- Replace `attention`. -/
def State.setAttention (s : State) (x : List Nat) : State := { s with attention := x }

/-- Replace `reports`. -/
def State.setReports (s : State) (x : ReportQueue) : State := { s with reports := x }

/-- Replace `conds`. -/
def State.setConds (s : State) (x : ConditionSet) : State := { s with conds := x }

/-- Replace `lines`. -/
def State.setLines (s : State) (x : LocalLines) : State := { s with lines := x }

/-- Replace `seg`. -/
def State.setSeg (s : State) (x : SegmentLine) : State := { s with seg := x }

/-- Replace `link`. -/
def State.setLink (s : State) (x : HostLink) : State := { s with link := x }

/-- Replace `pending`. -/
def State.setPending (s : State) (x : List Instr) : State := { s with pending := x }

end Sys2Proof.Machine
end

