-- ==== Sys2Proof/Machine/Operands.lean ====
section
/-! DEFINITION. Everything that sits between bytes, symbols and values: the byte codes (R191, R192, R195), byte order
(R191), the frame check (R159), request codes and lengths (R193), link frames (R174), segment bodies and symbols
(R157, R158, R196), and the clock conversions of 12.7 and R92. -/

namespace Sys2Proof.Machine

/-! ## Clock -/

/-- 12.7: clock periods in a bit time. -/
def bitClocks : BitRate → Nat
  | .k40 => 256
  | .k160 => 64

/-- R92: bit times in a tick. -/
def bitsPerTick : BitRate → Nat
  | .k40 => 4
  | .k160 => 16

/-- R92: a duration in bit times as ticks, rounded up. -/
def bitsToTicks (r : BitRate) (bits : Nat) : Nat := (bits + (bitsPerTick r - 1)) / bitsPerTick r

/-- Whole ticks from one instant to another, rounded down. -/
def ticksBetween (since now : Nat) : Nat := (now - since) / Config.tickClocks

/-! ## Byte order (R191): high byte first -/

def byteOf (n : Nat) : Byte := BitVec.ofNat 8 n

def be16 (n : Nat) : List Byte := [byteOf (n / 256), byteOf n]

def be32 (n : Nat) : List Byte := [byteOf (n / 16777216), byteOf (n / 65536), byteOf (n / 256), byteOf n]

/-- The number a run of bytes spells, high byte first. -/
def ofBytes (bs : List Byte) : Nat := bs.foldl (fun acc b => acc * 256 + b.toNat) 0

def flagByte (b : Bool) : Byte := if b then 1 else 0

def identityBytes (i : Identity) : List Byte := be16 i.maker.toNat ++ be16 i.model.toNat ++ be32 i.serial.toNat

/-- R191: an optional identity: presence flag, then the field, zeros when absent. -/
def optIdentityBytes : Option Identity → List Byte
  | some i => 1 :: identityBytes i
  | none => 0 :: List.replicate 8 0

/-- R191: an optional cycle number: presence flag, then the field, zeros when absent. -/
def optCycleBytes : Option Word32 → List Byte
  | some c => 1 :: be32 c.toNat
  | none => 0 :: List.replicate 4 0

/-- R191: the eight bytes of an identity. -/
def identityOf : List Byte → Identity
  | bs => { maker := BitVec.ofNat 16 (ofBytes (bs.take 2)), model := BitVec.ofNat 16 (ofBytes ((bs.drop 2).take 2))
            serial := BitVec.ofNat 32 (ofBytes ((bs.drop 4).take 4)) }

/-! ## Enumeration codes (R191) -/

def modeCode : Mode → Byte
  | .config => 0
  | .run => 1
  | .stopping => 2

def rosterStateCode : RosterState → Byte
  | .vacant => 0
  | .active => 1
  | .held => 2
  | .lost => 3
  | .barred => 4

def rosterStateOf (b : Byte) : Option RosterState :=
  match b.toNat with
  | 0 => some .vacant
  | 1 => some .active
  | 2 => some .held
  | 3 => some .lost
  | 4 => some .barred
  | _ => none

def qualityCode : Quality → Byte
  | .offline => 0
  | .noSource => 1
  | .never => 2
  | .good => 3
  | .stale => 4
  | .badLength => 5

def watchModeOf (b : Byte) : Option WatchMode :=
  match b.toNat with
  | 0 => some .off
  | 1 => some .change
  | 2 => some .quality
  | _ => none

def bankOf (b : Byte) : Option BankName :=
  match b.toNat with
  | 0 => some .active
  | 1 => some .shadow
  | _ => none

def messageClassCode : MessageClass → Byte
  | .normal => 0
  | .urgent => 1

def messageClassOf (b : Byte) : Option MessageClass :=
  match b.toNat with
  | 0 => some .normal
  | 1 => some .urgent
  | _ => none

def messageStateCode : MessageState → Byte
  | .queued => 0
  | .inFlight => 1

def messageOutcomeCode : MessageOutcome → Byte
  | .delivered => 0
  | .noReply => 1
  | .deviceGone => 2
  | .cancelled => 3
  | .aborted => 4

def levelCode : Level → Byte
  | .low => 0
  | .high => 1

def levelOf (b : Byte) : Option Level :=
  match b.toNat with
  | 0 => some .low
  | 1 => some .high
  | _ => none

def safeLevelOf (b : Byte) : Option SafeLevel :=
  match b.toNat with
  | 0 => some .low
  | 1 => some .high
  | 2 => some .hold
  | _ => none

def edgeSettingOf (b : Byte) : Option EdgeSetting :=
  match b.toNat with
  | 0 => some .rise
  | 1 => some .fall
  | 2 => some .both
  | _ => none

def edgeCode : Edge → Byte
  | .rise => 0
  | .fall => 1

/-- R191: a flag byte is 00h or 01h; any other value is out of range (log 17). -/
def flagOf (b : Byte) : Option Bool :=
  match b.toNat with
  | 0 => some false
  | 1 => some true
  | _ => none

def conditionOf (b : Byte) : Option ConditionName :=
  match b.toNat with
  | 0 => some .babble
  | 1 => some .noEcho
  | 2 => some .foreign
  | 3 => some .cycleLate
  | 4 => some .reportLoss
  | 5 => some .hostSilent
  | _ => none

def skipReasonCode : SkipReason → Byte
  | .late => 0
  | .absent => 1
  | .overrun => 2
  | .collision => 3
  | .echoLost => 4
  | .abandoned => 5

def heldReasonCode : HeldReason → Byte
  | .unknown => 0
  | .mismatch => 1

def lostCauseCode : LostCause → Byte
  | .silent => 0
  | .barred => 1

def dropReasonCode : DropReason → Byte
  | .absent => 0
  | .lost => 1

def alternationCode : Alternation → Byte
  | .fetch => 0
  | .normal => 1

def referenceKindCode : ReferenceKind → Byte
  | .activeSlot => 0
  | .shadowSlot => 1
  | .trigger => 2
  | .mirror => 3

def phaseCode : Phase → Byte
  | .waitingLine _ => 0
  | .sending _ => 1
  | .awaiting _ => 2
  | .receiving => 3
  | .ended => 4

def originCode : Origin → Byte
  | .mark _ _ => 0
  | .slot _ => 1
  | .trigger _ => 2
  | .outbound _ => 3
  | .fetch => 4
  | .probe => 5

/-- R42. -/
def frameKindCode : FrameKind → Nat
  | .mark => 1
  | .cue => 2
  | .pub => 3
  | .roll => 4
  | .answer => 5
  | .fetch => 6
  | .note => 7
  | .send => 8
  | .reply => 9

/-- R32, R42: codes 0 and 10 to 15 are not frame kinds. -/
def frameKindOf (n : Nat) : Option FrameKind :=
  match n with
  | 1 => some .mark
  | 2 => some .cue
  | 3 => some .pub
  | 4 => some .roll
  | 5 => some .answer
  | 6 => some .fetch
  | 7 => some .note
  | 8 => some .send
  | 9 => some .reply
  | _ => none

/-- The kinds only a master sends (R38). -/
def partSent : FrameKind → Bool
  | .mark | .cue | .roll | .fetch | .send => true
  | .pub | .answer | .note | .reply => false

/-- R195. -/
def reportKindCode : ReportKind → Fin 22
  | .start => 0x01
  | .messageOutcome => 0x02
  | .overflow => 0x03
  | .deviceLost => 0x04
  | .deviceHeld => 0x05
  | .duplicateIdentity => 0x06
  | .lineFault => 0x07
  | .foreignTraffic => 0x08
  | .stopped => 0x09
  | .swapDone => 0x0A
  | .swapDiscarded => 0x0B
  | .cycleLate => 0x0C
  | .deviceJoined => 0x0D
  | .addressClash => 0x0E
  | .note => 0x0F
  | .lineRestored => 0x10
  | .slotsSkipped => 0x11
  | .deviceInverted => 0x12
  | .pointChanged => 0x13
  | .lineEdge => 0x14
  | .triggerDropped => 0x15

/-- The 21 kinds in code order. -/
def reportKinds : List ReportKind :=
  [.start, .messageOutcome, .overflow, .deviceLost, .deviceHeld, .duplicateIdentity, .lineFault, .foreignTraffic,
   .stopped, .swapDone, .swapDiscarded, .cycleLate, .deviceJoined, .addressClash, .note, .lineRestored,
   .slotsSkipped, .deviceInverted, .pointChanged, .lineEdge, .triggerDropped]

def reportKindOf (b : Byte) : Option ReportKind :=
  reportKinds.find? fun k => (reportKindCode k).val == b.toNat

/-- R192. -/
def resultCode : Result → Byte
  | .ok => 0x00
  | .unknownRequest => 0x01
  | .badLength => 0x02
  | .badArgument => 0x03
  | .wrongMode => 0x04
  | .wrongState => 0x05
  | .busy => 0x06
  | .full => 0x07
  | .exists_ => 0x08
  | .notFound => 0x09
  | .referenced => 0x0A
  | .notPresent => 0x0B
  | .tagInUse => 0x0C
  | .tooLate => 0x0D

/-- R172. -/
def baud : LinkRate → Nat
  | .b115200 => 115200
  | .b230400 => 230400
  | .b460800 => 460800
  | .b921600 => 921600

def linkRateOf (n : Nat) : Option LinkRate :=
  [LinkRate.b115200, .b230400, .b460800, .b921600].find? fun r => baud r == n

/-- R2, R194: the bit rate as 40 or 160. -/
def rateNumber : BitRate → Nat
  | .k40 => 40
  | .k160 => 160

/-- R2, R194: the admission policy as 0 or 1. -/
def admissionNumber : Admission → Nat
  | .closed => 0
  | .opened => 1

/-! ## Requests (R193) -/

def requestCode : RequestName → Byte
  | .configure => 0x01
  | .readConfig => 0x02
  | .start => 0x03
  | .stop => 0x04
  | .addSlot => 0x05
  | .deleteSlot => 0x06
  | .clearShadow => 0x07
  | .copyActive => 0x08
  | .readSlots => 0x09
  | .swap => 0x0A
  | .cancelSwap => 0x0B
  | .admitStation => 0x20
  | .bar => 0x21
  | .unbar => 0x22
  | .provision => 0x23
  | .forget => 0x24
  | .readDevice => 0x25
  | .listDevices => 0x26
  | .declare => 0x30
  | .withdraw => 0x31
  | .readPoint => 0x32
  | .watch => 0x33
  | .send => 0x40
  | .cancel => 0x41
  | .listMessages => 0x42
  | .ackReports => 0x50
  | .resendReports => 0x51
  | .setLevel => 0x52
  | .readConditions => 0x53
  | .clearConditions => 0x54
  | .setLine => 0x60
  | .writeLine => 0x61
  | .readLines => 0x62
  | .identify => 0x70
  | .status => 0x71
  | .setLinkRate => 0x72
  | .restart => 0x73

/-- R193: the payload lengths step 3 of R179 allows. -/
def lengthAllowed : RequestName → Nat → Bool
  | .configure, n => n ≤ 192 && n % 3 == 0
  | .addSlot, n => n == 6
  | .deleteSlot, n => n == 2
  | .readSlots, n => n == 3
  | .admitStation, n | .bar, n | .unbar, n | .forget, n | .readDevice, n | .listDevices, n | .cancel, n => n == 1
  | .provision, n => n == 9
  | .declare, n => n == 4
  | .withdraw, n | .readPoint, n | .ackReports, n | .setLevel, n | .writeLine, n => n == 2
  | .watch, n => n == 3
  | .send, n => 4 ≤ n && n ≤ 52
  | .clearConditions, n => n ≤ 6
  | .setLine, n => 2 ≤ n && n ≤ 9
  | .setLinkRate, n => n == 4
  | .readConfig, n | .start, n | .stop, n | .clearShadow, n | .copyActive, n | .swap, n | .cancelSwap, n
  | .listMessages, n | .resendReports, n | .readConditions, n | .readLines, n | .identify, n | .status, n
  | .restart, n => n == 0

/-- The requests of section 10.7. -/
def requestNames : List RequestName :=
  [.configure, .readConfig, .start, .stop, .addSlot, .deleteSlot, .clearShadow, .copyActive, .readSlots, .swap,
   .cancelSwap, .admitStation, .bar, .unbar, .provision, .forget, .readDevice, .listDevices, .declare, .withdraw,
   .readPoint, .watch, .send, .cancel, .listMessages, .ackReports, .resendReports, .setLevel, .readConditions,
   .clearConditions, .setLine, .writeLine, .readLines, .identify, .status, .setLinkRate, .restart]

/-- R179 step 2: CODE names a request. -/
def codeKnown (code : Byte) : Bool := requestNames.any fun r => requestCode r == code

/-! ## Request payloads as the host writes them (R193) -/

namespace Wire

def configure (entries : List (Nat × Nat)) : List Byte := entries.flatMap fun e => byteOf e.1 :: be16 e.2

def addSlot (offset address number divisor phase : Nat) : List Byte :=
  be16 offset ++ [byteOf address, byteOf number, byteOf divisor, byteOf phase]

def deleteSlot (offset : Nat) : List Byte := be16 offset

def bankCode : BankName → Byte
  | .active => 0
  | .shadow => 1

def watchModeCode : WatchMode → Byte
  | .off => 0
  | .change => 1
  | .quality => 2

def readSlots (bank : BankName) (offset : Nat) : List Byte := bankCode bank :: be16 offset

def address (a : Nat) : List Byte := [byteOf a]

def provision (a : Nat) (i : Identity) : List Byte := byteOf a :: identityBytes i

def point (k : Key) : List Byte := [byteOf k.address, byteOf k.number]

def declare (k : Key) (length staleLimit : Nat) : List Byte := point k ++ [byteOf length, byteOf staleLimit]

def watch (k : Key) (w : WatchMode) : List Byte :=
  point k ++ [watchModeCode w]

def send (destination : Nat) (tag : Byte) (cls : MessageClass) (limit : Nat) (payload : List Byte) : List Byte :=
  [byteOf destination, tag, messageClassCode cls, byteOf limit] ++ payload

def ackReports (n : Word16) : List Byte := be16 n.toNat

def setLevel (k : ReportKind) (level : Nat) : List Byte := [byteOf (reportKindCode k).val, byteOf level]

def writeLine (line : Fin 8) (l : Level) : List Byte := [byteOf line.val, levelCode l]

def setLinkRate (r : LinkRate) : List Byte := be32 (baud r)

def edgeSettingCode : EdgeSetting → Byte
  | .rise => 0
  | .fall => 1
  | .both => 2

def safeLevelCode : SafeLevel → Byte
  | .low => 0
  | .high => 1
  | .hold => 2

/-- R191: an optional key: presence flag, address, point number, zeros when absent. -/
def optPoint : Option Key → List Byte
  | some k => 1 :: point k
  | none => [0, 0, 0]

def setLineOff (line : Fin 8) : List Byte := [byteOf line.val, 0]

def setLineInput (line : Fin 8) (edge : EdgeSetting) (filter : Nat) (reportEdge : Bool) (binding : Option Key) :
    List Byte :=
  [byteOf line.val, 1, edgeSettingCode edge, byteOf filter, flagByte reportEdge] ++ optPoint binding

def setLineHost (line : Fin 8) (safe : SafeLevel) (initial : Level) : List Byte :=
  [byteOf line.val, 2, safeLevelCode safe, levelCode initial]

def setLineMirror (line : Fin 8) (safe : SafeLevel) (initial : Level) (binding : Key) (byteIndex bitIndex : Nat)
    (invert : Bool) : List Byte :=
  [byteOf line.val, 3, safeLevelCode safe, levelCode initial] ++ point binding ++
    [byteOf byteIndex, byteOf bitIndex, flagByte invert]

end Wire

/-! ## The frame check (R159) -/

/-- One bit into the 16-bit register. -/
def crcBit (reg : Word16) (bit : Bool) : Word16 :=
  let shifted := reg <<< 1
  if reg.msb == bit then shifted else shifted ^^^ 0x1021

/-- One byte, most significant bit first. -/
def crcByte (reg : Word16) (b : Byte) : Word16 :=
  [7, 6, 5, 4, 3, 2, 1, 0].foldl (fun r i => crcBit r (b.getLsbD i)) reg

/-- The register after a run of bytes, from FFFFh. -/
def crcRegister (bs : List Byte) : Word16 := bs.foldl crcByte 0xFFFF

/-- The two check bytes of a run of bytes, high byte first. -/
def crcBytes (bs : List Byte) : List Byte := be16 (~~~ crcRegister bs).toNat

/-- A run of bytes with its two check bytes passes the check. -/
def crcSound (bs : List Byte) : Bool := crcRegister bs == 0x1D0F

/-! ## Link frames (R174, R192) -/

/-- LEN through the last payload byte. -/
def LinkFrame.inner (f : LinkFrame) : List Byte :=
  [byteOf (f.payload.length + 4), f.cls, f.code] ++ be16 f.num.toNat ++ f.payload

/-- The whole frame, SYNC through the CRC, as it crosses the link. -/
def LinkFrame.bytes (f : LinkFrame) : List Byte := Config.sync :: (f.inner ++ crcBytes f.inner)

/-! ## Bytes on the link (R172) -/

/-- R172: a byte on the link, true for high: the start bit, the data bits from the least significant on, the stop bit. -/
def uartByte (b : Byte) : List Bool := false :: (List.range 8).map b.getLsbD ++ [true]

/-- R172: what a receiver makes of the ten bits of a byte: none is a framing error, its stop bit being low. -/
def uartRead (bits : List Bool) : Option Byte :=
  if bits.getD 9 false then some (byteOf (((bits.drop 1).take 8).foldr (fun b acc => acc * 2 + b.toNat) 0)) else none

/-- R172: the bits of a frame, its bytes back to back. -/
def LinkFrame.bits (f : LinkFrame) : List Bool := f.bytes.flatMap uartByte

/-- R172: the clock periods within which n bit periods of a link rate have passed. -/
def linkClocks (r : LinkRate) (n : Nat) : Nat := (n * Config.clockHz + baud r - 1) / baud r

/-- R172: the bit periods of a link rate that have passed within some clock periods. -/
def linkBits (r : LinkRate) (clocks : Nat) : Nat := clocks * baud r / Config.clockHz

/-- CLASS of a request, a response and a report. -/
def classRequest : Byte := 1
def classResponse : Byte := 2
def classReport : Byte := 3

/-! ## Segment frame bodies (R42, R43, R196) -/

/-- Byte 0 of a body the part sends: the kind code above four clear flag bits. -/
def kindByte (k : FrameKind) : Byte := byteOf (frameKindCode k * 16)

def markBody (cycle : Word32) (period : Nat) : List Byte :=
  [kindByte .mark, byteOf Config.allStations] ++ be32 cycle.toNat ++ be16 period

def cueBody (a number : Nat) : List Byte := [kindByte .cue, byteOf a, byteOf number]

def rollBody (a : Nat) : List Byte := [kindByte .roll, byteOf a]

def fetchBody (a : Nat) : List Byte := [kindByte .fetch, byteOf a]

def sendBody (a : Nat) (tag : Byte) (payload : List Byte) : List Byte := [kindByte .send, byteOf a, tag] ++ payload

/-- R196: bits 7..4 of byte 0. -/
def bodyKind (body : List Byte) : Nat := (body.getD 0 0).toNat / 16

/-- R196: bit 0 of byte 0. -/
def bodyAttention (body : List Byte) : Bool := (body.getD 0 0).getLsbD 0

/-- R196: bits 5..0 of byte 1; bits 7 and 6 are ignored. -/
def bodyAddress (body : List Byte) : Nat := (body.getD 1 0).toNat % 64

/-! ## Symbols (R157, R158) -/

def symbolOfBit (b : Bool) : Symbol := if b then .one else .zero

/-- The value of a data symbol; none for a symbol with no mid-bit transition. -/
def symbolBit : Symbol → Option Bool
  | .one => some true
  | .zero => some false
  | .vPlus => none
  | .vMinus => none

/-- First and second half-bit of a symbol, true for high. -/
def symbolHalves : Symbol → Bool × Bool
  | .one => (true, false)
  | .zero => (false, true)
  | .vPlus => (true, true)
  | .vMinus => (false, false)

/-- The symbol a crossed pair shows. -/
def symbolInverse : Symbol → Symbol
  | .one => .zero
  | .zero => .one
  | .vPlus => .vMinus
  | .vMinus => .vPlus

def preambleSymbols : List Symbol := [.one, .zero, .one, .zero, .one, .zero, .one, .zero, .one, .zero, .one, .zero]

def startDelimiter : List Symbol := [.vPlus, .vPlus, .one, .vMinus, .zero, .vMinus]

def endDelimiter : List Symbol := [.vMinus, .one, .vPlus, .vPlus, .zero, .vMinus]

/-- R158: each byte least significant bit first. -/
def byteSymbols (b : Byte) : List Symbol := [0, 1, 2, 3, 4, 5, 6, 7].map fun i => symbolOfBit (b.getLsbD i)

/-- Body, check and end delimiter of a frame. -/
def bodySymbols (body : List Byte) : List Symbol := (body ++ crcBytes body).flatMap byteSymbols ++ endDelimiter

/-- R158: a whole frame. -/
def frameSymbols (body : List Byte) : List Symbol := preambleSymbols ++ startDelimiter ++ bodySymbols body

/-- R158: a frame of n body bytes lasts 8n + 40 bit times. -/
def frameBits (n : Nat) : Nat := 8 * n + 40

end Sys2Proof.Machine
end

