-- ==== Sys2Proof/Machine/Flags.lean ====
section
/-! DEFINITION. The standing flags of the part: the six conditions (R138, R139) and HELD_PRESENT (R66). -/

namespace Sys2Proof.Machine

/-- The flags of one condition. -/
def ConditionSet.get (c : ConditionSet) : ConditionName → Condition
  | .babble => c.babble
  | .noEcho => c.noEcho
  | .foreign => c.foreign
  | .cycleLate => c.cycleLate
  | .reportLoss => c.reportLoss
  | .hostSilent => c.hostSilent

/-- Replace the flags of one condition. -/
def ConditionSet.put (c : ConditionSet) (n : ConditionName) (x : Condition) : ConditionSet :=
  match n with
  | .babble => { c with babble := x }
  | .noEcho => { c with noEcho := x }
  | .foreign => { c with foreign := x }
  | .cycleLate => { c with cycleLate := x }
  | .reportLoss => { c with reportLoss := x }
  | .hostSilent => { c with hostSilent := x }

/-- R139: the six conditions in condition-code order. -/
def conditionNames : List ConditionName := [.babble, .noEcho, .foreign, .cycleLate, .reportLoss, .hostSilent]

/-- R138: set an active flag; its latched flag is set when the active flag goes from clear to set. -/
def activate (n : ConditionName) (s : State) : State :=
  if (s.conds.get n).active then s else s.setConds (s.conds.put n { active := true, latched := true })

/-- R138: clear an active flag; the latched flag stays. -/
def deactivate (n : ConditionName) (s : State) : State :=
  s.setConds (s.conds.put n { s.conds.get n with active := false })

/-- R19, R139: CYCLE_LATE becomes active and at once inactive again, which leaves its latched flag set. -/
def latchCycleLate (s : State) : State := deactivate .cycleLate (activate .cycleLate s)

/-- R141: clear the latched flag of a condition whose active flag is clear. -/
def clearLatch (n : ConditionName) (s : State) : State :=
  if (s.conds.get n).active then s else s.setConds (s.conds.put n { active := false, latched := false })

/-- R66: HELD_PRESENT is active while at least one entry is HELD. -/
def State.heldPresent (s : State) : Bool := s.roster.entries.toList.any fun e => e.state == .held

/-- R177: HOLD is asserted while both places of the receive buffer are occupied; released in reset (R188). -/
def State.hold (s : State) : Bool := !s.inReset && s.link.buffer.length == Config.bufferPlaces

end Sys2Proof.Machine
end

