-- ==== Sys2Proof/Machine/Ops.lean ====
section
/-! DEFINITION. The named operations the meanings share: the clock and when the line permits a start, the report queue,
the scheduler's skips, roster entries, the cache's changes and its mirrors, settling a message, foreign traffic. -/

namespace Sys2Proof.Machine

/-- Apply an action to each item in turn. -/
def overAll {α : Type} (xs : List α) (f : α → State → State) (s : State) : State := xs.foldl (fun t x => f x t) s

/-! ## Clock and line -/

/-- The instant of a happening has come: the clock reads at least t (log 2). -/
def State.reach (s : State) (t : Nat) : State := s.setNow (max s.now t)

/-- Clock periods of n bit times at the rate in force. -/
def State.bits (s : State) (n : Nat) : Nat := n * bitClocks s.sched.params.rate

/-- The instant at which the turnaround is met if the line stays quiet (R160). -/
def State.turnaroundAt (s : State) : Nat :=
  max s.seg.lastTransition s.seg.lastEndDelimiter + s.bits Config.turnaroundBits

/-- R160: 8 bit times have passed since the last transition and since the last end delimiter. While the line is ACTIVE
fewer than 4 have passed since a transition (log 9). -/
def State.turnaroundMet (s : State) : Bool :=
  s.seg.activity == .quiet && decide (s.turnaroundAt ≤ s.now)

/-- R18: the line permits a start. -/
def State.linePermits (s : State) : Bool :=
  s.txn.record.isNone && s.turnaroundMet && !s.seg.babbleFault

/-! ## Report queue (R123-R127) -/

/-- Index of a kind's level. -/
def levelIndex (k : ReportKind) : Nat := (reportKindCode k).val - 1

/-- R133: the level of a kind. -/
def ReportQueue.levelOf (q : ReportQueue) (k : ReportKind) : Nat := q.levels[levelIndex k]?.getD 0

/-- R124: places in use: entries plus reservations. -/
def ReportQueue.places (q : ReportQueue) : Nat := q.unsent.length + q.sent.length + q.reservations

/-- R124: one more place can be taken. -/
def State.canReserve (s : State) : Bool := decide (s.reports.places < Config.reportPlaces)

/-- R126: a candidate for displacement by a report of level l. -/
def displaceable (l : Nat) (r : Report) : Bool := !r.reserved && decide (r.level < l)

/-- R126: the lowest level among the candidates. -/
def lowestCandidate (l : Nat) (rs : List Report) : Option Nat :=
  ((rs.filter (displaceable l)).map (·.level)).min?

/-- Remove the newest item with a property. -/
def eraseNewest {α : Type} (p : α → Bool) (xs : List α) : List α := (xs.reverse.eraseP p).reverse

/-- R126: one report is lost. -/
def countLoss (s : State) : State :=
  activate .reportLoss (s.setReports { s.reports with lossTally := min 65535 (s.reports.lossTally + 1) })

/-- R125 steps 3 and 4, R126: post a report as a new entry, displacing or discarding in a full queue. -/
def postReport (r : Report) (s : State) : State :=
  if s.canReserve then s.setReports { s.reports with unsent := s.reports.unsent ++ [r] }
  else
    match lowestCandidate r.level s.reports.unsent with
    | some l =>
      countLoss (s.setReports
        { s.reports with
            unsent := eraseNewest (fun e => displaceable r.level e && e.level == l) s.reports.unsent ++ [r] })
    | none => countLoss s

/-- R85: an UNSENT POINT_CHANGED entry for the same point as the body. -/
def samePoint (body : List Byte) (r : Report) : Bool := r.kind == .pointChanged && r.body.take 2 == body.take 2

/-- R85: rewrite the contents of the UNSENT entry for the point. -/
def rewriteReport (body : List Byte) (s : State) : State :=
  s.setReports { s.reports with
    unsent := s.reports.unsent.map fun r => if samePoint body r then { r with body := body } else r }

/-- R125: raise a report that does not fill a reservation. -/
def raiseReport (k : ReportKind) (body : List Byte) (s : State) : State :=
  if s.reports.levelOf k = 0 then s
  else if k == .pointChanged && s.reports.unsent.any (samePoint body) then rewriteReport body s
  else postReport { kind := k, level := s.reports.levelOf k, body := body, reserved := false } s

/-- R124: take a reservation. -/
def takeReservation (s : State) : State :=
  s.setReports { s.reports with reservations := s.reports.reservations + 1 }

/-- R124: a reservation is filled and joins the tail at the kind's level at that instant. -/
def fillReservation (k : ReportKind) (body : List Byte) (s : State) : State :=
  s.setReports { s.reports with
    unsent := s.reports.unsent ++ [{ kind := k, level := s.reports.levelOf k, body := body, reserved := true }]
    reservations := s.reports.reservations - 1 }

/-- R127: a freed place queues an OVERFLOW report when reports have been lost. -/
def overflowIfDue (s : State) : State :=
  if s.reports.lossTally = 0 then s
  else if s.canReserve then
    deactivate .reportLoss (s.setReports { s.reports with
      unsent := s.reports.unsent ++ [{ kind := .overflow, level := s.reports.levelOf .overflow
                                       body := be16 s.reports.lossTally, reserved := false }]
      lossTally := 0 })
  else s

/-- R119, R124, R127: release a reservation. -/
def releaseReservation (s : State) : State :=
  overflowIfDue (s.setReports { s.reports with reservations := s.reports.reservations - 1 })

/-! ## Slots and skips (R8, R20, R21) -/

/-- R8: the slot is due in cycle n. -/
def Slot.due (x : Slot) (n : Word32) : Bool := n.toNat % x.divisor == x.phase

/-- R8: the point a slot cues. -/
def Slot.key (x : Slot) : Key := { address := x.address, number := x.number }

/-- The slot of a bank at an offset. -/
def slotAt (bank : List Slot) (offset : Nat) : Option Slot := bank.find? fun x => x.offset == offset

/-- Insert in ascending order. -/
def insertOffset (o : Nat) : List Nat → List Nat
  | [] => [o]
  | x :: xs => if o < x then o :: x :: xs else x :: insertOffset o xs

/-- The nominal instant of an offset of the current cycle (R20). -/
def State.nominalAt (s : State) (offset : Nat) : Nat := s.sched.cycleStart + offset * Config.tickClocks

/-- R16: the nominal instant of the next boundary. -/
def State.boundaryAt (s : State) : Nat := s.nominalAt s.sched.params.period

/-- R21: the first of the skips so far and one more: the earliest, and at one instant the one of the lowest offset. -/
def firstSkip (first : Option Skip) (x : Skip) : Skip :=
  match first with
  | some y => if y.instant = x.instant ∧ x.offset < y.offset then x else y
  | none => x

/-- R22: the reason comes of the outcome of the slot's CUE. -/
def cueReason : SkipReason → Bool
  | .late => false
  | .absent => false
  | .overrun => false
  | .collision => true
  | .echoLost => true
  | .abandoned => true

/-- R21: a skip enters the skip summary. -/
def SkipSummary.join (m : SkipSummary) (x : Skip) : SkipSummary :=
  { count := m.count + 1, first := some (firstSkip m.first x)
    firstCue := if cueReason x.reason then some (firstSkip m.firstCue x) else m.firstCue }

/-- R21: a skip that enters the skip summary and the skip total. -/
def recordSkip (offset : Nat) (reason : SkipReason) (s : State) : State :=
  s.setSched { s.sched with
    summary := s.sched.summary.join { offset := offset, reason := reason, instant := s.now }
    skipTotal := s.sched.skipTotal + 1 }

/-- R21: a skip with reason ABSENT. -/
def countAbsent (s : State) : State := s.setSched { s.sched with absentTally := s.sched.absentTally + 1 }

/-! ## Roster entries (R46) -/

/-- The addresses 1..62. -/
def stationAddresses : List Nat := (List.range Config.stationCount).map (· + 1)

/-- The entry of an address. -/
def State.entry (s : State) (a : Nat) : RosterEntry :=
  if a = 0 then .vacant else s.roster.entries[a - 1]?.getD .vacant

/-- Replace the entry of an address. -/
def State.setEntry (s : State) (a : Nat) (e : RosterEntry) : State :=
  if a = 0 then s else s.setRoster { s.roster with entries := s.roster.entries.setIfInBounds (a - 1) e }

/-- The address has an ACTIVE station. -/
def State.stationActive (s : State) (a : Nat) : Bool := (s.entry a).state == .active

/-- The address is one of 1..62. -/
def stationAddress (a : Nat) : Bool := decide (1 ≤ a) && decide (a ≤ Config.stationCount)

/-! ## Local lines: driving and mirrors (R145, R153) -/

/-- L0 to L7. -/
def allLines : List (Fin 8) := [0, 1, 2, 3, 4, 5, 6, 7]

/-- R143: the level the part drives on a pin; none for high impedance. -/
def LineRecord.drive : LineRecord → Option Level
  | .off => none
  | .input _ => none
  | .outputHost l => some l.current
  | .outputMirror l => some l.current

/-- Replace a line's record. A newly driven level stands at the pin at once; a released pin keeps its level until the
outside changes it (log 7). -/
def putLine (i : Fin 8) (r : LineRecord) (s : State) : State :=
  s.setLines
    { records := s.lines.records.set i r
      pins := s.lines.pins.set i
        (if r.drive = s.lines.records[i].drive then s.lines.pins[i] else r.drive.getD s.lines.pins[i]) }

/-- The level a safe level shows, given the held level (R152, R153). -/
def safeShown : SafeLevel → Level → Level
  | .low, _ => .low
  | .high, _ => .high
  | .hold, held => held

/-- R153: the bound bit's level, byte 0 first, bit 0 least significant, exchanged by the invert flag. -/
def MirrorLine.bitLevel (l : MirrorLine) (value : List Byte) : Level :=
  if ((value.getD l.byteIndex 0).getLsbD l.bitIndex) != l.invert then .high else .low

/-- R153: the line as a point of this quality and value makes it. -/
def MirrorLine.shown (l : MirrorLine) (q : Quality) (value : List Byte) : MirrorLine :=
  if q = .good then { l with current := l.bitLevel value, held := l.bitLevel value }
  else { l with current := safeShown l.safe l.held }

/-- R86, R153: tell each mirrored line of a point, in ascending line number. -/
def notifyMirrors (k : Key) (q : Quality) (value : List Byte) (s : State) : State :=
  overAll allLines (fun i t =>
    match t.lines.records[i] with
    | .outputMirror l => if l.binding = k then putLine i (.outputMirror (l.shown q value)) t else t
    | _ => t) s

/-- Change the fields of an INPUT line. -/
def changeInput (i : Fin 8) (f : InputLine → InputLine) (s : State) : State :=
  match s.lines.records[i] with
  | .input l => putLine i (.input (f l)) s
  | _ => s

/-! ## Point cache (R70, R83-R86) -/

/-- The record of a key. -/
def State.point (s : State) (k : Key) : Option Point := s.points.find? fun p => p.key == k

/-- R84: the body of POINT_CHANGED. -/
def pointChangedBody (p : Point) : List Byte :=
  [byteOf p.key.address, byteOf p.key.number, qualityCode p.quality, p.status] ++ be16 p.updates.toNat ++ p.value

/-- R83: a change asks for a report under the point's watch mode. -/
def watched (old new : Point) : Bool :=
  match new.watch with
  | .off => false
  | .change => old.value != new.value || old.status != new.status || old.quality != new.quality
  | .quality => old.quality != new.quality

/-- Replace a record. -/
def replacePoint (ps : List Point) (p : Point) : List Point := ps.map fun q => if q.key = p.key then p else q

/-- R83-R86: one happening at one point: the record changes, POINT_CHANGED is raised where watched, and the mirrors are
told of a change of quality or value. -/
def changePoint (f : Point → Point) (p : Point) (s : State) : State :=
  let p' := f p
  let s := s.setPoints (replacePoint s.points p')
  let s := if watched p p' then raiseReport .pointChanged (pointChangedBody p') s else s
  if p.quality = p'.quality ∧ p.value = p'.value then s else notifyMirrors p'.key p'.quality p'.value s

/-- One happening at every point of a list, in key order. -/
def changePoints (f : Point → Point) (ps : List Point) (s : State) : State := overAll ps (changePoint f) s

/-- The declared points of an address, in ascending point number. -/
def State.pointsOf (s : State) (a : Nat) : List Point := s.points.filter fun p => p.key.address == a

/-- Set a quality. -/
def Point.withQuality (q : Quality) (p : Point) : Point := { p with quality := q }

/-- R78: the publisher entry becomes ACTIVE. -/
def publisherActive (a : Nat) (s : State) : State :=
  if s.sched.mode = .run then
    changePoints (fun p => if p.quality = .noSource then p.withQuality .never else p) (s.pointsOf a) s
  else s

/-- R78: the publisher entry leaves ACTIVE. -/
def publisherGone (a : Nat) (s : State) : State :=
  if s.sched.mode = .run then
    changePoints (fun p => if p.quality = .offline then p else p.withQuality .noSource) (s.pointsOf a) s
  else s

/-! ## Outbound messages (R111) -/

/-- The held message with a tag. -/
def State.message (s : State) (t : Byte) : Option Message := s.outbound.find? fun m => m.tag == t

/-- Change the held message with a tag. -/
def changeMessage (t : Byte) (f : Message → Message) (s : State) : State :=
  s.setOutbound (s.outbound.map fun m => if m.tag = t then f m else m)

/-- R195: the body of MESSAGE_OUTCOME. -/
def outcomeBody (m : Message) (o : MessageOutcome) (extra : List Byte) : List Byte :=
  [m.tag, byteOf m.destination, messageClassCode m.cls, messageOutcomeCode o, byteOf m.made] ++ extra

/-- R111: settle a message's outcome: its report fills its reservation and it leaves the queue. -/
def settleMessage (m : Message) (o : MessageOutcome) (extra : List Byte) (s : State) : State :=
  let s := fillReservation .messageOutcome (outcomeBody m o extra) s
  s.setOutbound (s.outbound.eraseP fun x => x.tag == m.tag)

/-! ## Foreign traffic (R38-R40) -/

/-- R38: another master's frame is seen. -/
def sightForeign (k : FrameKind) (a : Nat) (s : State) : State :=
  let s :=
    if s.conds.foreign.active then s
    else raiseReport .foreignTraffic
      ([byteOf (frameKindCode k), byteOf a, modeCode s.sched.mode] ++
        optCycleBytes (if s.sched.mode = .run then some s.sched.cycle else none))
      (activate .foreign s)
  s.setTxn { s.txn with seenThisCycle := true, lastForeign := some s.now }

/-- The instant at which FOREIGN expires by time (R40). -/
def foreignExpiryAt (last : Nat) : Nat := last + Config.foreignExpiryMs * Config.msClocks

/-- R40: FOREIGN becomes inactive when 100 ms or more have passed since the last sighting. -/
def evaluateForeign (s : State) : State :=
  match s.txn.lastForeign with
  | some t => if s.conds.foreign.active && decide (foreignExpiryAt t ≤ s.now) then deactivate .foreign s else s
  | none => s

end Sys2Proof.Machine
end

