-- ==== Sys2Proof/Machine/Delivery.lean ====
section
/-! DEFINITION. How a transaction ends: the outcomes of section 2.4, the loss consequences (R59), and the delivery of an
outcome to the roster, the point cache, the attention list and the origin's owner, in that order (R35). -/

namespace Sys2Proof.Machine

/-- R32: the fields an answer carries to the recipients. -/
inductive Answer where
  | pub (number : Nat) (status : Byte) (value : List Byte)
  | answer (identity : Identity)
  | note (payload : List Byte)
  | reply (tag result : Byte) (payload : List Byte)
  deriving DecidableEq, Repr

/-- Section 2.4: the outcomes. ANSWERED carries the fields, the attention flag and the polarity. -/
inductive TxnOutcome where
  | sent
  | answered (answer : Answer) (attention inverted : Bool)
  | miss
  | garbled
  | wrong
  | collision
  | echoLost
  | abandoned
  deriving DecidableEq, Repr

/-! ## Losing a station (R58, R59, R61) -/

/-- R59 step 1: each waiting slot for the address is skipped ABSENT. -/
def skipWaitingSlots (a : Nat) (s : State) : State :=
  let lost := fun o => ((slotAt s.sched.active o).map (·.address)) == some a
  let t := overAll (s.sched.waiting.filter lost) (fun _ => countAbsent) s
  t.setSched { t.sched with waiting := t.sched.waiting.filter fun o => !lost o }

/-- R59 step 2, R120: the address leaves the attention list. -/
def removeAttention (a : Nat) (s : State) : State := s.setAttention (s.attention.filter (· != a))

/-- R59 step 3, R112: what a held message does when its destination leaves ACTIVE. -/
def loseMessage (m : Message) (s : State) : State :=
  if m.state = .inFlight ∧ m.onLine then changeMessage m.tag (fun x => { x with gone := true }) s
  else settleMessage m .deviceGone [] s

/-- R59 step 3, in acceptance order. -/
def loseMessages (a : Nat) (s : State) : State :=
  overAll (s.outbound.filter fun m => m.destination == a) loseMessage s

/-- R150: drop the pending trigger of a line. -/
def dropTrigger (i : Fin 8) (k : Key) (reason : DropReason) (s : State) : State :=
  raiseReport .triggerDropped [byteOf i.val, byteOf k.address, byteOf k.number, dropReasonCode reason]
    (changeInput i (fun l => { l with pending := false }) s)

/-- R59 step 5, R150: drop each pending trigger bound to a point of the address whose CUE is not on the line. -/
def dropLostTriggers (a : Nat) (s : State) : State :=
  overAll allLines (fun i t =>
    match t.lines.records[i] with
    | .input l =>
      match l.binding with
      | some k => if k.address = a ∧ l.pending ∧ ¬ l.cueOnLine then dropTrigger i k .lost t else t
      | none => t
    | _ => t) s

/-- R59: the loss consequences, in order. -/
def lossConsequences (a : Nat) (s : State) : State :=
  dropLostTriggers a (publisherGone a (loseMessages a (removeAttention a (skipWaitingSlots a s))))

/-- R195: the body of DEVICE_LOST. An ACTIVE entry always has a seen identity (log 25). -/
def deviceLostBody (a : Nat) (cause : LostCause) (e : RosterEntry) : List Byte :=
  [byteOf a, lostCauseCode cause] ++ (e.seen.map identityBytes).getD (List.replicate 8 0) ++ optCycleBytes e.lastHeard

/-- R58, R61: an ACTIVE entry takes a new state, DEVICE_LOST is raised and the loss consequences follow. -/
def loseStation (a : Nat) (newState : RosterState) (cause : LostCause) (s : State) : State :=
  let e := s.entry a
  lossConsequences a (raiseReport .deviceLost (deviceLostBody a cause e) (s.setEntry a { e with state := newState }))

/-! ## The roster's step (R36, R49-R58) -/

/-- R56: take the polarity of an answering frame. -/
def takePolarity (a : Nat) (inverted : Bool) (s : State) : State :=
  let e := s.entry a
  if e.inverted = inverted then s
  else raiseReport .deviceInverted [byteOf a, flagByte inverted] (s.setEntry a { e with inverted := inverted })

/-- R53: an entry becomes ACTIVE. -/
def becomeActive (a : Nat) (i : Identity) (rejoin admitted : Bool) (s : State) : State :=
  let e := s.entry a
  let s := s.setEntry a
    { e with state := .active, seen := some i, miss := 0, clash := 0
             lastHeard := if admitted then e.lastHeard else some s.sched.cycle }
  raiseReport .deviceJoined ([byteOf a] ++ identityBytes i ++ [flagByte rejoin, flagByte admitted]) (publisherActive a s)

/-- R52: an entry becomes HELD. -/
def becomeHeld (a : Nat) (i : Identity) (reason : HeldReason) (s : State) : State :=
  let e := s.entry a
  raiseReport .deviceHeld
    ([byteOf a] ++ identityBytes i ++ [heldReasonCode reason] ++
      optIdentityBytes (if reason = .mismatch then e.expected else none))
    (s.setEntry a { e with state := .held, seen := some i })

/-- R50: another ACTIVE or HELD entry that carries the identity. -/
def holderOf (a : Nat) (i : Identity) (s : State) : Option Nat :=
  stationAddresses.find? fun b =>
    b != a && ((s.entry b).state == .active || (s.entry b).state == .held) && (s.entry b).seen == some i

/-- R50-R52: the four tests on an ANSWER. -/
def takeIdentity (a : Nat) (i : Identity) (s : State) : State :=
  match holderOf a i s with
  | some b =>
    raiseReport .duplicateIdentity
      ([byteOf a, byteOf b, rosterStateCode (s.entry b).state] ++ identityBytes i) s
  | none =>
    if (s.entry a).seen = some i then becomeActive a i true false s
    else
      match (s.entry a).expected with
      | some x => if x = i then becomeActive a i false false s else becomeHeld a i .mismatch s
      | none =>
        match s.sched.params.admission with
        | .opened => becomeActive a i false false s
        | .closed => becomeHeld a i .unknown s

/-- R55: a garbled answer to ROLL. -/
def countClash (a : Nat) (s : State) : State :=
  let e := s.entry a
  let s := s.setEntry a { e with clash := min 255 (e.clash + 1) }
  if e.clash = 0 then raiseReport .addressClash [byteOf a] s else s

/-- R57, R58: one miss against an ACTIVE entry, and the loss when it reaches the limit. -/
def countMiss (a : Nat) (s : State) : State :=
  let e := s.entry a
  let s := s.setEntry a { e with miss := e.miss + 1 }
  if e.miss + 1 = s.sched.params.missLimit then loseStation a .lost .silent s else s

/-- R49: a ROLL's outcome at its entry. -/
def rollOutcome (a : Nat) (o : TxnOutcome) (s : State) : State :=
  if (s.entry a).state = .vacant ∨ (s.entry a).state = .lost then
    match o with
    | .answered (.answer i) _ inverted => takePolarity a inverted (takeIdentity a i s)
    | .garbled => countClash a s
    | _ => s
  else
    match o with
    | .answered _ _ inverted => takePolarity a inverted s
    | _ => s

/-- R57: the outcome of a CUE, FETCH or SEND at its entry. -/
def workOutcome (a : Nat) (o : TxnOutcome) (s : State) : State :=
  match o with
  | .answered _ _ inverted =>
    takePolarity a inverted
      (if s.stationActive a then s.setEntry a { s.entry a with miss := 0, lastHeard := some s.sched.cycle } else s)
  | .miss | .garbled | .wrong => if s.stationActive a then countMiss a s else s
  | .sent | .collision | .echoLost | .abandoned => s

/-- R35 step 1, R36. -/
def rosterStep (r : Record) (o : TxnOutcome) (s : State) : State :=
  match r.kind with
  | .mark => s
  | .roll => rollOutcome r.target o s
  | _ => workOutcome r.target o s

/-! ## The cache's step (R79-R81) -/

/-- R80: a PUB of the declared length. -/
def storePub (run : Bool) (cycle : Word32) (status : Byte) (value : List Byte) (p : Point) : Point :=
  { p with value := value, status := status, age := 0, updates := p.updates + 1, lastUpdate := some cycle
           quality := if run then .good else p.quality }

/-- R79-R81: the cache receives a PUB. -/
def takePub (a number : Nat) (status : Byte) (value : List Byte) (s : State) : State :=
  match s.point { address := a, number := number } with
  | none => s
  | some p =>
    if !s.stationActive a then s
    else if value.length = p.length then
      changePoint (storePub (s.sched.mode == .run) s.sched.cycle status value) p s
    else if s.sched.mode = .run then changePoint (Point.withQuality .badLength) p s
    else s

/-- R35 step 2. -/
def cacheStep (r : Record) (o : TxnOutcome) (s : State) : State :=
  match r.kind, o with
  | .cue, .answered (.pub number status value) _ _ => takePub r.target number status value s
  | _, _ => s

/-! ## The attention list's step (R117) -/

/-- R35 step 3. -/
def attentionStep (r : Record) (o : TxnOutcome) (s : State) : State :=
  match o with
  | .answered _ true _ =>
    if s.stationActive r.target ∧ r.target ∉ s.attention then s.setAttention (s.attention ++ [r.target]) else s
  | _ => s

/-! ## The owner's step -/

/-- R22: the scheduler settles a slot. -/
def slotOutcome (offset : Nat) (o : TxnOutcome) (s : State) : State :=
  match o with
  | .collision => recordSkip offset .collision s
  | .echoLost => recordSkip offset .echoLost s
  | .abandoned => recordSkip offset .abandoned s
  | _ => s

/-- R109, R110, R112, R113: an attempt that was not answered; `fault` for COLLISION, ECHO_LOST and ABANDONED, which give
the attempt back (log 14). -/
def attemptFailed (m : Message) (fault : Bool) (s : State) : State :=
  let m' := if fault then { m with made := m.made - 1 } else m
  if m.gone then settleMessage m' .deviceGone [] s
  else if s.sched.mode = .stopping then settleMessage m' .aborted [] s
  else if !fault && m.made == m.limit then settleMessage m' .noReply [] s
  else changeMessage m.tag (fun _ => m') s

/-- R107-R110: the outbound queue takes an attempt's outcome. -/
def outboundOutcome (t : Byte) (o : TxnOutcome) (s : State) : State :=
  match s.message t with
  | none => s
  | some m =>
    match o with
    | .answered (.reply _ result payload) _ _ => settleMessage m .delivered (result :: payload) s
    | .miss | .garbled | .wrong => attemptFailed m false s
    | .collision | .echoLost | .abandoned => attemptFailed m true s
    | _ => s

/-- R119: the attention list settles the reservation of a FETCH. -/
def fetchOutcome (a : Nat) (o : TxnOutcome) (s : State) : State :=
  match o with
  | .answered (.note (b :: bs)) _ _ => fillReservation .note (byteOf a :: b :: bs) s
  | _ => releaseReservation s

/-- R149: the local line unit settles a trigger, if its cue-on-the-line flag was set when the record ended. -/
def triggerOutcome (i : Fin 8) (owned : Bool) (s : State) : State :=
  if owned then changeInput i (fun l => { l with pending := false }) s else s

/-- R35 step 4. -/
def ownerStep (r : Record) (o : TxnOutcome) (owned : Bool) (s : State) : State :=
  match r.origin with
  | .mark _ _ => s
  | .slot offset => slotOutcome offset o s
  | .trigger i => triggerOutcome i owned s
  | .outbound t => outboundOutcome t o s
  | .fetch => fetchOutcome r.target o s
  | .probe => s

/-! ## The end of a record (R35) -/

/-- R149: the record's line has its cue-on-the-line flag set. -/
def cueOwned (r : Record) (s : State) : Bool :=
  match r.origin with
  | .trigger i => match s.lines.records[i] with | .input l => l.cueOnLine | _ => false
  | _ => false

/-- R107, R149: when the record ends, the attempt-on-the-line or cue-on-the-line flag of its owner is cleared. -/
def clearOnLine (r : Record) (s : State) : State :=
  match r.origin with
  | .outbound t => changeMessage t (fun m => { m with onLine := false }) s
  | .trigger i => changeInput i (fun l => { l with cueOnLine := false }) s
  | _ => s

/-- R35: the record ends, its outcome is delivered in order, and it is discarded. -/
def endRecord (o : TxnOutcome) (s : State) : State :=
  match s.txn.record with
  | none => s
  | some r =>
    let owned := cueOwned r s
    let s := clearOnLine r (s.setTxn { s.txn with record := some { r with phase := .ended } })
    let s := ownerStep r o owned (attentionStep r o (cacheStep r o (rosterStep r o s)))
    s.setTxn { s.txn with record := none }

/-! ## Judging an answer and stray frames (R31-R33, R38) -/

/-- The kind an expected answer has. -/
def Expected.kind : Expected → FrameKind
  | .pub _ _ => .pub
  | .answer _ => .answer
  | .note _ => .note
  | .reply _ _ => .reply

/-- The address an expected answer has. -/
def Expected.address : Expected → Nat
  | .pub a _ => a
  | .answer a => a
  | .note a => a
  | .reply a _ => a

/-- R32 check 3: the body length lies within the kind's range. -/
def Expected.lengthFits (e : Expected) (n : Nat) : Bool :=
  match e with
  | .pub _ _ => 5 ≤ n && n ≤ 36
  | .answer _ => n == 10
  | .note _ => 2 ≤ n && n ≤ 50
  | .reply _ _ => 4 ≤ n && n ≤ 51

/-- R32 check 4: the point number or the tag is the one asked for. -/
def Expected.itemFits (e : Expected) (body : List Byte) : Bool :=
  match e with
  | .pub _ number => (body.getD 2 0).toNat == number
  | .reply _ tag => body.getD 2 0 == tag
  | .answer _ => true
  | .note _ => true

/-- R32: the fields of a matching frame. -/
def Expected.answerOf (e : Expected) (body : List Byte) : Answer :=
  match e with
  | .pub _ number => .pub number (body.getD 3 0) (body.drop 4)
  | .answer _ => .answer (identityOf (body.drop 2))
  | .note _ => .note (body.drop 2)
  | .reply _ tag => .reply tag (body.getD 3 0) (body.drop 4)

/-- R32: all four checks. -/
def Expected.matchesBody (e : Expected) (body : List Byte) : Bool :=
  frameKindOf (bodyKind body) == some e.kind && bodyAddress body == e.address && e.lengthFits body.length &&
    e.itemFits body

/-- R32: the outcome of a GOOD frame received in RECEIVING. -/
def judgeAnswer (e : Option Expected) (body : List Byte) (inverted : Bool) : TxnOutcome :=
  match e with
  | some e => if e.matchesBody body then .answered (e.answerOf body) (bodyAttention body) inverted else .wrong
  | none => .wrong

/-- R32, R38: a GOOD frame of a part-sent kind is foreign traffic. -/
def noteForeign (body : List Byte) (s : State) : State :=
  match frameKindOf (bodyKind body) with
  | some k => if partSent k then sightForeign k (bodyAddress body) s else s
  | none => s

/-- R38: a stray frame. -/
def strayFrame (v : Verdict) (s : State) : State :=
  let s := s.setTxn { s.txn with stray := s.txn.stray + 1 }
  match v with
  | .good body _ => noteForeign body s
  | _ => s

/-- R31, R38: the transaction unit receives the verdict on a received frame. A foreign sighting is taken before the
outcome is delivered (log 13). A frame that came after the deadline is stray, though the record still stands (R38, log 16). -/
def receivedVerdict (v : Verdict) (s : State) : State :=
  match s.txn.record with
  | none => strayFrame v s
  | some r =>
    match r.phase with
    | .receiving =>
      match v with
      | .good body inverted => endRecord (judgeAnswer r.expected body inverted) (noteForeign body s)
      | _ => endRecord .garbled s
    | .awaiting deadline => if deadline < s.now then strayFrame v s else s
    | _ => strayFrame v s

end Sys2Proof.Machine
end

