-- ==== Sys2Proof/Machine/Link.lean ====
section
/-! DEFINITION. The host link's shared operations: taking a request in the five steps of R179, its response and the
last-request record (R180, R182), the receive assembler and the judging of a frame (R175, R176), the transmit side
(R183), the rate change (R173), and the resets as every block takes them (R188). -/

namespace Sys2Proof.Machine

/-- While the RESET pin is held asserted no happening acts on the part (R188). -/
def unlessInReset (f : State → State) (s : State) : State := if s.inReset then s else f s

/-! ## Responses -/

/-- R182: the result code of a response and the bytes after it. -/
structure Reply where
  result : Result
  extra : List Byte
  deriving DecidableEq, Repr

/-- A response of a result code alone. -/
def Reply.plain (r : Result) : Reply := { result := r, extra := [] }

/-- An OK response with further bytes. -/
def Reply.okWith (extra : List Byte) : Reply := { result := .ok, extra := extra }

/-- R183: a frame begins on TXD. -/
def beginSending (f : LinkFrame) (s : State) : State :=
  s.setLink { s.link with sending := some f, sendingSince := s.now }

/-- R183: a response is sent at once when the transmit side is free, and otherwise waits. -/
def transmit (f : LinkFrame) (s : State) : State :=
  match s.link.sending with
  | none => beginSending f s
  | some _ => s.setLink { s.link with waiting := some f }

/-- R182, R192: the response frame of a reply. -/
def responseFrame (code : Byte) (num : Word16) (r : Reply) : LinkFrame :=
  { cls := classResponse, code := code, num := num, payload := resultCode r.result :: r.extra }

/-- R179, R180: the request becomes the last request taken and its response goes to the transmit side. -/
def respond (code : Byte) (num : Word16) (r : Reply) (s : State) : State :=
  transmit (responseFrame code num r)
    (s.setLink { s.link with lastRequest := some { code := code, num := num, response := responseFrame code num r } })

/-- The frame being sent is a response. -/
def HostLink.sendingResponse (l : HostLink) : Bool :=
  match l.sending with
  | some f => f.cls == classResponse
  | none => false

/-- R179: a response is waiting for the transmit side or being sent. -/
def HostLink.responseInHand (l : HostLink) : Bool := l.waiting.isSome || l.sendingResponse

/-! ## Taking requests (R179-R181) -/

/-- R176, R184: a valid request frame restarts the host-silence timer and ends HOST_SILENT. -/
def validFrame (s : State) : State :=
  deactivate .hostSilent (s.setLink { s.link with silenceStart := s.now })

/-- R179: the request is taken now: none when a response is in hand or another frame is ahead of it in the buffer. With an
empty buffer the frame is judged valid and taken at the same instant (log 4). -/
def admitFrame (f : RequestFrame) (s : State) : Option State :=
  if s.link.responseInHand then none
  else
    match s.link.buffer with
    | [] => some (validFrame s)
    | g :: rest => if g = f then some (s.setLink { s.link with buffer := rest }) else none

/-- R180: the request repeats the last request taken. -/
def LastRequest.repeats (r : LastRequest) (code : Byte) (num : Word16) : Bool :=
  r.code == code && r.num == num && num != 0

/-- R179 steps 2 to 5 of a request that is not a repeat: act, and respond. -/
def performRequest (code : Byte) (num : Word16) (act : State → State × Reply) (s : State) : State :=
  respond code num (act s).2 (act s).1

/-- R179: take a request frame; `act` is steps 2 to 5. -/
def takeFrame (f : RequestFrame) (act : State → State × Reply) (s : State) : State :=
  unlessInReset (fun s =>
    match admitFrame f s with
    | none => s
    | some t =>
      match t.link.lastRequest with
      | some r => if r.repeats f.code f.num then transmit r.response t else performRequest f.code f.num act t
      | none => performRequest f.code f.num act t) s

/-- R181: the mode refuses the request. -/
def modeRefusal : RequestName → Mode → Option Result
  | .configure, .run => some .wrongMode
  | .configure, .stopping => some .wrongMode
  | .start, .run => some .wrongMode
  | .start, .stopping => some .wrongMode
  | .stop, .config => some .wrongMode
  | .stop, .stopping => some .busy
  | .send, .config => some .wrongMode
  | .send, .stopping => some .wrongMode
  | _, _ => none

/-- R179 steps 3 to 5 of a request of section 10.7; `owner` is step 5. -/
def requestSteps (r : RequestName) (payload : List Byte) (owner : State → State × Reply) (s : State) : State × Reply :=
  if !lengthAllowed r payload.length then (s, .plain .badLength)
  else
    match modeRefusal r s.sched.mode with
    | some e => (s, .plain e)
    | none => owner s

/-- R179: take a request of section 10.7. -/
def takeRequest (r : RequestName) (num : Word16) (payload : List Byte) (owner : State → State × Reply) (s : State) :
    State :=
  takeFrame { code := requestCode r, num := num, payload := payload } (requestSteps r payload owner) s

/-- A refusal: the state is unchanged (R182). -/
def refuse (r : Result) (s : State) : State × Reply := (s, .plain r)

/-- An OK response with no further bytes. -/
def accept (s : State) : State × Reply := (s, .plain .ok)

/-- Byte i of a payload as a number. -/
def field8 (p : List Byte) (i : Nat) : Nat := (p.getD i 0).toNat

/-- The two bytes of a payload from i on, high byte first. -/
def field16 (p : List Byte) (i : Nat) : Nat := ofBytes ((p.drop i).take 2)

/-! ## Receiving (R175-R178) -/

/-- R178: a tally holds at 65535. -/
def tallyUp (n : Nat) : Nat := min 65535 (n + 1)

/-- R175: LEN 4..196. -/
def lenInRange (b : Byte) : Bool := decide (4 ≤ b.toNat) && decide (b.toNat ≤ 196)

/-- R175, R178: drop the partial frame with a format error. -/
def dropFormat (s : State) : State :=
  s.setLink { s.link with assembler := .hunting, formatTally := tallyUp s.link.formatTally }

/-- R177: a valid request frame enters the buffer, or is dropped as an overrun. -/
def enterBuffer (f : RequestFrame) (s : State) : State :=
  if s.link.buffer.length < Config.bufferPlaces then s.setLink { s.link with buffer := s.link.buffer ++ [f] }
  else s.setLink { s.link with overrunTally := tallyUp s.link.overrunTally }

/-- The request a complete frame (LEN through CRC) carries. -/
def requestOf (bs : List Byte) : RequestFrame :=
  { code := bs.getD 2 0, num := BitVec.ofNat 16 (field16 bs 3), payload := (bs.drop 5).take (bs.length - 7) }

/-- R176: judge a complete frame. -/
def judgeFrame (bs : List Byte) (s : State) : State :=
  let s := s.setLink { s.link with assembler := .hunting }
  if !crcSound bs then s.setLink { s.link with crcTally := tallyUp s.link.crcTally }
  else if bs.getD 1 0 != classRequest then dropFormat s
  else enterBuffer (requestOf bs) (validFrame s)

/-- R175: a byte while hunting. -/
def huntByte (b : Byte) (s : State) : State :=
  s.setLink { s.link with assembler := if b = Config.sync then .assembling [] else .hunting, lastByteAt := s.now }

/-- R175: a byte while assembling: the first is LEN; LEN + 2 further bytes complete the frame. -/
def assembleByte (bs : List Byte) (b : Byte) (s : State) : State :=
  match bs with
  | [] =>
    if lenInRange b then s.setLink { s.link with assembler := .assembling [b], lastByteAt := s.now } else dropFormat s
  | len :: _ =>
    let bs := bs ++ [b]
    s.setLink { s.link with
      assembler := if bs.length = len.toNat + 3 then .complete bs else .assembling bs
      lastByteAt := s.now }

/-- R175: a byte arrives. A complete frame is judged before the next byte is taken (log 26). -/
def takeByte (b : Byte) (s : State) : State :=
  match s.link.assembler with
  | .hunting => huntByte b s
  | .assembling bs => assembleByte bs b s
  | .complete bs => huntByte b (judgeFrame bs s)

/-! ## Transmitting (R128, R183) -/

/-- R183: a report entry's frame. -/
def reportFrame (r : Report) (seq : Word16) : LinkFrame :=
  { cls := classReport, code := byteOf (reportKindCode r.kind).val, num := seq, payload := r.body }

/-- The waiting response goes out when the transmit side is free. -/
def startWaiting (s : State) : State :=
  match s.link.sending, s.link.waiting with
  | none, some f => beginSending f (s.setLink { s.link with waiting := none })
  | _, _ => s

/-- TXD (R172): high at rest; while a frame is being sent, the bit that the link rate puts there now. -/
def State.txd (s : State) : Bool :=
  match s.link.sending with
  | none => true
  | some f => f.bits.getD (linkBits s.link.rate (s.now - s.link.sendingSince)) true

/-- R172, R173: the instant at which the last stop bit of the frame being sent has left TXD. -/
def State.frameEnd (f : LinkFrame) (s : State) : Nat :=
  s.link.sendingSince + linkClocks s.link.rate f.bits.length

/-- R173: the new rate takes effect; a frame part-way through assembly is discarded without a tally. -/
def applyRate (r : LinkRate) (s : State) : State :=
  s.setLink { s.link with
    rate := r, newRate := none
    assembler := match s.link.assembler with
      | .complete bs => .complete bs
      | _ => .hunting }

/-- R132: clear the resend due flag of the first due entry. -/
def clearFirstDue : List SentReport → List SentReport
  | [] => []
  | e :: es => if e.resendDue then { e with resendDue := false } :: es else e :: clearFirstDue es

/-- R128 item 2: the oldest UNSENT entry of the highest level held. -/
def bestUnsent (rs : List Report) : Option Report :=
  match (rs.map (·.level)).max? with
  | none => none
  | some l => rs.find? fun r => r.level == l

/-- R128-R130: the transmit side takes the report queue's offer, if there is one. -/
def takeOffer (s : State) : State :=
  match s.reports.sent.find? (·.resendDue) with
  | some e =>
    beginSending (reportFrame e.report e.seq) (s.setReports { s.reports with sent := clearFirstDue s.reports.sent })
  | none =>
    if s.reports.sent.length < Config.reportWindow then
      match bestUnsent s.reports.unsent with
      | some r =>
        beginSending (reportFrame r s.reports.counter)
          (s.setReports { s.reports with
            unsent := s.reports.unsent.eraseP fun x => x.level == r.level
            sent := s.reports.sent ++ [{ report := r, seq := s.reports.counter, resendDue := false }]
            counter := s.reports.counter + 1 })
      | none => s
    else s

/-! ## Resets (R188) -/

/-- Every block takes its reset values at this instant: R25, R45, R68, R88, R89, R122, R135, R142, R156, R171, R188. -/
def resetPart (cause : StartCause) (rate : LinkRate) (s : State) : State :=
  { now := s.now, inReset := false, sched := .reset s.now, txn := .reset, roster := .reset, points := []
    gap := .reset, outbound := [], attention := [], reports := .reset cause, conds := .reset
    lines := .reset s.lines.pins, seg := .reset s.now, link := .reset rate s.now, pending := s.pending }

/-- R188: a hard reset puts the link at 115200 baud. -/
def hardResetPart (cause : HardCause) (s : State) : State :=
  resetPart (match cause with | .power => .power | .pin => .pin) .b115200 s

/-- R187, R188: a soft reset keeps the link rate. -/
def softResetPart (s : State) : State := resetPart .requested s.link.rate s

/-- R188, R45, R171, 12.6: the RESET pin is asserted: the link and the segment transmitter are cut off, and the local lines
go to high impedance (log 19). -/
def holdInReset (s : State) : State :=
  { s with
      inReset := true
      txn := { s.txn with record := none }
      lines := .reset s.lines.pins
      seg := { s.seg with transmitter := .idle }
      link := { s.link with
        assembler := .hunting, buffer := [], waiting := none, sending := none, newRate := none, restartDue := false } }

end Sys2Proof.Machine
end

