-- ==== Sys2Proof/Machine/Receiver.lean ====
section
/-! DEFINITION. The receiver of the segment line, symbol by symbol (R161-R164), the routing of its verdicts (R164, R166),
and the transmitter's part of the frame at any instant (R165). -/

namespace Sys2Proof.Machine

/-- What reading a symbol leads to. -/
inductive ReadResult where
  | reading (r : Receiver)
  | verdict (frame : FrameInProgress) (v : Verdict)
  deriving DecidableEq, Repr

/-- R160: the instant of the last transition after one more symbol at the bit time that begins at t. -/
def FrameInProgress.afterSymbol (f : FrameInProgress) (bit : Nat) (x : Symbol) : FrameInProgress :=
  let t := f.start + f.count * bit
  let h := symbolHalves x
  { f with count := f.count + 1, lastHalf := h.2
           lastTransition :=
             if h.1 != h.2 then t + bit / 2 else if h.1 != f.lastHalf then t else f.lastTransition }

/-- R161: LOCKING takes a symbol. -/
def readLocking (f : FrameInProgress) (clean : Nat) (last : Option Bool) (x : Symbol) : ReadResult :=
  match symbolBit x with
  | none => .reading (.locking f 0 none)
  | some b =>
    if last = some b then .reading (.locking f 0 none)
    else if clean + 1 = 4 then .reading (.seeking f b [])
    else .reading (.locking f (clean + 1) (some b))

/-- R162: the six symbols read so far are the beginning of a pattern. -/
def beginsWith (pattern read : List Symbol) : Bool := pattern.take read.length == read

/-- R162: SEEKING takes a symbol. -/
def readSeeking (f : FrameInProgress) (last : Bool) (delimiter : List Symbol) (x : Symbol) : ReadResult :=
  match delimiter, symbolBit x with
  | [], some b => if b = last then .reading (.locking f 0 none) else .reading (.seeking f b [])
  | d, _ =>
    let read := d ++ [x]
    if read = startDelimiter then .reading (.body f false [] [] [])
    else if read = startDelimiter.map symbolInverse then .reading (.body f true [] [] [])
    else if beginsWith startDelimiter read || beginsWith (startDelimiter.map symbolInverse) read then
      .reading (.seeking f last read)
    else .verdict f .garbled

/-- R163: eight bits, least significant first, make a byte. -/
def byteOfBits (bits : List Bool) : Byte :=
  byteOf ((bits.foldr (fun b acc => acc * 2 + b.toNat) 0))

/-- R164: CLOSING judges the frame. -/
def closingVerdict (inverted : Bool) (bytes : List Byte) : Verdict :=
  if bytes.length < 4 then .runt
  else if crcSound bytes then .good (bytes.take (bytes.length - 2)) inverted
  else .checkError

/-- R163: a data symbol in BODY. -/
def readBodyBit (f : FrameInProgress) (inverted : Bool) (bytes : List Byte) (bits : List Bool) (b : Bool) : ReadResult :=
  let bits := bits ++ [b != inverted]
  if bits.length = 8 then
    let bytes := bytes ++ [byteOfBits bits]
    if bytes.length = 67 then .verdict f .tooLong else .reading (.body f inverted bytes [] [])
  else .reading (.body f inverted bytes bits [])

/-- R163: a symbol of a candidate end delimiter. -/
def readTail (f : FrameInProgress) (inverted : Bool) (bytes : List Byte) (tail : List Symbol) (x : Symbol) : ReadResult :=
  let read := tail ++ [x]
  let pattern := if inverted then endDelimiter.map symbolInverse else endDelimiter
  if read = pattern then .verdict f (closingVerdict inverted bytes)
  else if beginsWith pattern read then .reading (.body f inverted bytes [] read)
  else .verdict f .broken

/-- R163: BODY takes a symbol. -/
def readBody (f : FrameInProgress) (inverted : Bool) (bytes : List Byte) (bits : List Bool) (tail : List Symbol)
    (x : Symbol) : ReadResult :=
  match tail, symbolBit x with
  | [], some b => readBodyBit f inverted bytes bits b
  | [], none => if bits = [] then readTail f inverted bytes [] x else .verdict f .broken
  | tail, _ => readTail f inverted bytes tail x

/-- R162: no start delimiter completed by the end of the 32nd bit time from the first transition. -/
def delimiterLimit : ReadResult → ReadResult
  | .reading (.locking f clean last) =>
    if f.count < Config.delimiterLimitBits then .reading (.locking f clean last) else .verdict f .garbled
  | .reading (.seeking f last d) =>
    if f.count < Config.delimiterLimitBits then .reading (.seeking f last d) else .verdict f .garbled
  | r => r

/-- The receiver takes one symbol of the frame it is reading. QUIET and DRAIN read no symbols. -/
def readSymbol (bit : Nat) (r : Receiver) (x : Symbol) : ReadResult :=
  match r with
  | .quiet => .reading .quiet
  | .drain => .reading .drain
  | .locking f clean last => delimiterLimit (readLocking (f.afterSymbol bit x) clean last x)
  | .seeking f last d => delimiterLimit (readSeeking (f.afterSymbol bit x) last d x)
  | .body f inv bytes bits tail => readBody (f.afterSymbol bit x) inv bytes bits tail x

/-- What reading a run of symbols leads to: still reading, or a verdict and whether it came with the run's last symbol. -/
inductive RunResult where
  | reading (r : Receiver)
  | verdict (frame : FrameInProgress) (v : Verdict) (atEnd : Bool)
  deriving DecidableEq, Repr

/-- Read symbols until a verdict. -/
def readSymbols (bit : Nat) : Receiver → List Symbol → RunResult
  | r, [] => .reading r
  | r, x :: xs =>
    match readSymbol bit r x with
    | .reading r' => readSymbols bit r' xs
    | .verdict f v => .verdict f v xs.isEmpty

/-- The frame the receiver is reading. -/
def Receiver.frame : Receiver → Option FrameInProgress
  | .quiet => none
  | .drain => none
  | .locking f _ _ => some f
  | .seeking f _ _ => some f
  | .body f _ _ _ _ => some f

/-- The receiver reads BODY of a frame with no symbol of it read yet. -/
def Receiver.bodyBegun : Receiver → Bool
  | .body _ _ [] [] [] => true
  | _ => false

/-- The receiver looks for a start delimiter: LOCKING or SEEKING. -/
def Receiver.beforeDelimiter : Receiver → Bool
  | .locking _ _ _ => true
  | .seeking _ _ _ => true
  | _ => false

/-- The instant at which the symbols read of a frame end. -/
def FrameInProgress.endAt (f : FrameInProgress) (bit : Nat) : Nat := f.start + f.count * bit

/-- R164: the verdict was given in CLOSING, at the end of an end delimiter. -/
def Verdict.closed : Verdict → Bool
  | .good _ _ => true
  | .checkError => true
  | .runt => true
  | .broken => false
  | .tooLong => false
  | .garbled => false

/-- The transmitter is away from IDLE (R165). -/
def Transmitter.busy : Transmitter → Bool
  | .idle => false
  | .sending _ _ => true

/-- R166: the echo of the frame being sent keeps the first verdict given after a start delimiter (log 10). -/
def noteEcho (v : Verdict) (s : State) : State :=
  if v = .garbled ∨ s.seg.echo.isSome ∨ ¬ s.seg.transmitter.busy then s
  else s.setSeg { s.seg with echo := some v }

/-- R164: a verdict is given: an echo's goes to the echo check, any other to the transaction unit. -/
def giveVerdict (f : FrameInProgress) (v : Verdict) (s : State) : State :=
  if f.echo then noteEcho v s else receivedVerdict v s

/-- R162-R164: a verdict ends the reading of a frame. CLOSING returns the receiver to QUIET and records the end delimiter;
any other verdict enters DRAIN. -/
def closeFrame (f : FrameInProgress) (v : Verdict) (s : State) : State :=
  let seg := { s.seg with lastTransition := max s.seg.lastTransition f.lastTransition }
  let seg :=
    if v.closed then
      { seg with receiver := .quiet, lastEndDelimiter := max seg.lastEndDelimiter (f.endAt (s.bits 1)) }
    else { seg with receiver := .drain }
  giveVerdict f v (s.setSeg seg)

/-- R165: the transmitter's states. -/
inductive TransmitterState where
  | idle | preamble | start | body | check | end_
  deriving DecidableEq, Repr

/-- R165: the transmitter's state, from the bit times gone since it left IDLE. -/
def State.transmitterState (s : State) : TransmitterState :=
  match s.seg.transmitter with
  | .idle => .idle
  | .sending body since =>
    let n := (s.now - since) / s.bits 1
    if n < 12 then .preamble
    else if n < 18 then .start
    else if n < 18 + 8 * body.length then .body
    else if n < 34 + 8 * body.length then .check
    else .end_

/-- SEG_TXEN (R165). -/
def State.segTxen (s : State) : Bool := s.seg.transmitter.busy

/-- SEG_TX (R157, R158, R165): the half-bit on the line, true for high; low while IDLE. -/
def State.segTx (s : State) : Bool :=
  match s.seg.transmitter with
  | .idle => false
  | .sending body since =>
    let half := (s.now - since) / (s.bits 1 / 2)
    match (frameSymbols body)[half / 2]? with
    | some x => if half % 2 = 0 then (symbolHalves x).1 else (symbolHalves x).2
    | none => false

end Sys2Proof.Machine
end

