-- ==== Sys2Proof/Machine/SegmentCycle.lean ====
section
/-! DEFINITION. Chapter 1: the requests of the cycle scheduler, and the cycle's own events BOUNDARY, MARK_START, SLOT_DUE,
SLOT_START, SLOT_LATE and STOPPING_END. -/

namespace Sys2Proof.Machine

/-! ## CONFIGURE and READ_CONFIG (R2-R4) -/

/-- R3: the entries of a CONFIGURE payload: parameter number and value. -/
def configEntries : List Byte → List (Nat × Nat)
  | n :: hi :: lo :: rest => (n.toNat, ofBytes [hi, lo]) :: configEntries rest
  | _ => []

/-- R2: the value lies in the parameter's range; false for a number outside 1..8. -/
def paramInRange (n v : Nat) : Bool :=
  match n with
  | 1 => decide (50 ≤ v ∧ v ≤ 65535)
  | 2 => decide (v ≤ 255)
  | 3 => decide (16 ≤ v ∧ v ≤ 255)
  | 4 => v == 40 || v == 160
  | 5 => decide (1 ≤ v ∧ v ≤ 15)
  | 6 => decide (v ≤ 4)
  | 7 => decide (v ≤ 1)
  | 8 => v == 0 || decide (10 ≤ v ∧ v ≤ 60000)
  | _ => false

/-- R3 pass 1: position of the first bad entry, the first entry being 1; `seen` holds the numbers named before. -/
def firstBadEntry (position : Nat) (seen : List Nat) : List (Nat × Nat) → Option Nat
  | [] => none
  | (n, v) :: es =>
    if paramInRange n v && !seen.contains n then firstBadEntry (position + 1) (n :: seen) es else some position

/-- R3: the largest offset held in either bank; 0 when both are empty. -/
def largestOffset (s : State) : Nat := ((s.sched.active ++ s.sched.shadow).map (·.offset)).foldl max 0

/-- R170: the receiver gives up the frame it is decoding (log 15). -/
def Receiver.giveUp (r : Receiver) : Receiver := if r.frame.isSome then .drain else r

/-- R170: the line unit changes rate. -/
def changeBitRate (r : BitRate) (s : State) : State :=
  if s.sched.params.rate = r then s
  else
    (s.setSched { s.sched with params := { s.sched.params with rate := r } }).setSeg
      { s.seg with
          receiver := s.seg.receiver.giveUp, activity := .active, lastTransition := s.now, lastEndDelimiter := s.now
          activeSince := s.now }

/-- R4: one entry is applied. -/
def applyParam (n v : Nat) (s : State) : State :=
  let p := s.sched.params
  match n with
  | 1 => s.setSched { s.sched with params := { p with period := v } }
  | 2 => s.setSched { s.sched with params := { p with tolerance := v } }
  | 3 => s.setSched { s.sched with params := { p with window := v } }
  | 4 => changeBitRate (if v = 160 then .k160 else .k40) s
  | 5 => s.setSched { s.sched with params := { p with missLimit := v } }
  | 6 => s.setSched { s.sched with params := { p with probes := v } }
  | 7 => s.setSched { s.sched with params := { p with admission := if v = 1 then .opened else .closed } }
  | 8 => (s.setSched { s.sched with params := { p with holdTime := v } }).setLink { s.link with silenceStart := s.now }
  | _ => s

/-- R3: all entries are applied, in list order. -/
def applyParams (es : List (Nat × Nat)) (s : State) : State := overAll es (fun e => applyParam e.1 e.2) s

/-- R3: CONFIGURE at the scheduler. -/
def ownConfigure (payload : List Byte) (s : State) : State × Reply :=
  let es := configEntries payload
  match firstBadEntry 1 [] es with
  | some position => (s, { result := .badArgument, extra := [byteOf position] })
  | none =>
    match es.find? (fun e => e.1 == 1) with
    | some e =>
      if e.2 ≤ largestOffset s then (s, { result := .referenced, extra := be16 (largestOffset s) })
      else accept (applyParams es s)
    | none => accept (applyParams es s)

/-- CONFIGURE (R3). -/
def execConfigure (num : Word16) (payload : List Byte) (s : State) : Host.Outcome State Fault Refusal :=
  .next (takeRequest .configure num payload (ownConfigure payload) s)

/-- R194: the eight parameter values. -/
def paramBytes (p : Params) : List Byte :=
  be16 p.period ++ be16 p.tolerance ++ be16 p.window ++ be16 (rateNumber p.rate) ++ be16 p.missLimit ++
    be16 p.probes ++ be16 (admissionNumber p.admission) ++ be16 p.holdTime

/-- READ_CONFIG (R4). -/
def execReadConfig (num : Word16) (payload : List Byte) (s : State) : Host.Outcome State Fault Refusal :=
  .next (takeRequest .readConfig num payload (fun t => (t, .okWith (paramBytes t.sched.params))) s)

/-! ## START, STOP and the end of STOPPING (R5-R7) -/

/-- R5: START takes effect. -/
def startCycle (s : State) : State :=
  let s := s.setRoster { s.roster with probePointer := 1 }
  let s := changePoints (Point.withQuality .noSource) s.points s
  let s := s.setGap { s.gap with probesStarted := 0 }
  let s := s.setTxn { s.txn with seenThisCycle := false }
  s.setSched { s.sched with
    mode := .run, cycle := 0, cycleStart := s.now, summary := .empty, skipTotal := 0, absentTally := 0
    markWaiting := true, waiting := [], presented := [] }

/-- START (R5). -/
def execStart (num : Word16) (payload : List Byte) (s : State) : Host.Outcome State Fault Refusal :=
  .next (takeRequest .start num payload (fun t => accept (startCycle t)) s)

/-- R6, R40, R77: STOP takes effect. -/
def stopCycle (s : State) : State :=
  let s := s.setSched { s.sched with mode := .stopping, markWaiting := false, waiting := [] }
  let s := changePoints (Point.withQuality .offline) s.points s
  evaluateForeign s

/-- STOP (R6). -/
def execStop (num : Word16) (payload : List Byte) (s : State) : Host.Outcome State Fault Refusal :=
  .next (takeRequest .stop num payload (fun t => accept (stopCycle t)) s)

/-- R7: a pending swap is discarded. -/
def discardSwap (s : State) : State :=
  if s.sched.swapPending then
    raiseReport .swapDiscarded [byteOf s.sched.shadow.length] (s.setSched { s.sched with swapPending := false })
  else s

/-- R67: the STOP effects on one entry. -/
def RosterEntry.afterStop (e : RosterEntry) : RosterEntry :=
  match e.state with
  | .active => { e with state := .vacant, miss := 0 }
  | .lost => { e with state := .vacant, miss := 0 }
  | .held => { e with state := .vacant, seen := none, miss := 0 }
  | .vacant => { e with miss := 0 }
  | .barred => { e with miss := 0 }

/-- R67: the STOP effects on the roster. -/
def settleRoster (s : State) : State :=
  overAll stationAddresses (fun a t => t.setEntry a (t.entry a).afterStop) s

/-- R113: every message still held ends ABORTED, in acceptance order. -/
def abortMessages (s : State) : State := overAll s.outbound (fun m => settleMessage m .aborted []) s

/-- R155: trigger pending is cleared on every INPUT line, without a report. -/
def clearTriggers (s : State) : State :=
  overAll allLines (fun i => changeInput i (fun l => { l with pending := false })) s

/-- R7: the end of STOPPING. -/
def endStopping (s : State) : State :=
  let s := s.setSched { s.sched with mode := .config, configSince := s.now, summary := .empty, presented := [] }
  let s := discardSwap s
  let s := settleRoster s
  let s := s.setAttention []
  let s := abortMessages s
  let s := clearTriggers s
  let s := evaluateForeign s
  raiseReport .stopped (be32 s.sched.cycle.toNat) s

/-- STOPPING_END (R7): STOPPING ends when the transaction unit is idle. -/
def execStoppingEnd (s : State) : Host.Outcome State Fault Refusal :=
  .next (unlessInReset (fun s =>
    if s.sched.mode = .stopping ∧ s.txn.record = none then endStopping s else s) s)

/-! ## The slot banks (R8-R12) -/

/-- R8: the allowed divisors. -/
def divisorAllowed (d : Nat) : Bool := [1, 2, 4, 8, 16, 32].contains d

/-- R9 check 2: the slot's fields are in range. -/
def slotInRange (period : Nat) (x : Slot) : Bool :=
  decide (0 < x.offset) && decide (x.offset < period) && stationAddress x.address && decide (x.number ≤ 15) &&
    divisorAllowed x.divisor && decide (x.phase < x.divisor)

/-- Insert a slot in ascending offset. -/
def insertSlot (x : Slot) : List Slot → List Slot
  | [] => [x]
  | y :: ys => if x.offset < y.offset then x :: y :: ys else y :: insertSlot x ys

/-- The slot an ADD_SLOT payload names. -/
def slotOf (p : List Byte) : Slot :=
  { offset := field16 p 0, address := field8 p 2, number := field8 p 3, divisor := field8 p 4, phase := field8 p 5 }

/-- R9: the checks in order. -/
def ownAddSlot (payload : List Byte) (s : State) : State × Reply :=
  let x := slotOf payload
  if s.sched.swapPending then refuse .busy s
  else if !slotInRange s.sched.params.period x then refuse .badArgument s
  else if (s.point x.key).isNone then refuse .notFound s
  else if (slotAt s.sched.shadow x.offset).isSome then refuse .exists_ s
  else if Config.slotsPerBank ≤ s.sched.shadow.length then refuse .full s
  else accept (s.setSched { s.sched with shadow := insertSlot x s.sched.shadow })

/-- ADD_SLOT (R9). -/
def execAddSlot (num : Word16) (payload : List Byte) (s : State) : Host.Outcome State Fault Refusal :=
  .next (takeRequest .addSlot num payload (ownAddSlot payload) s)

/-- R10. -/
def ownDeleteSlot (payload : List Byte) (s : State) : State × Reply :=
  if s.sched.swapPending then refuse .busy s
  else if (slotAt s.sched.shadow (field16 payload 0)).isNone then refuse .notFound s
  else accept (s.setSched
    { s.sched with shadow := s.sched.shadow.filter fun x => x.offset != field16 payload 0 })

/-- DELETE_SLOT (R10). -/
def execDeleteSlot (num : Word16) (payload : List Byte) (s : State) : Host.Outcome State Fault Refusal :=
  .next (takeRequest .deleteSlot num payload (ownDeleteSlot payload) s)

/-- R11: replace the shadow bank, unless a swap is pending. -/
def replaceShadow (bank : State → List Slot) (s : State) : State × Reply :=
  if s.sched.swapPending then refuse .busy s else accept (s.setSched { s.sched with shadow := bank s })

/-- CLEAR_SHADOW (R11). -/
def execClearShadow (num : Word16) (payload : List Byte) (s : State) : Host.Outcome State Fault Refusal :=
  .next (takeRequest .clearShadow num payload (replaceShadow fun _ => []) s)

/-- COPY_ACTIVE (R11). -/
def execCopyActive (num : Word16) (payload : List Byte) (s : State) : Host.Outcome State Fault Refusal :=
  .next (takeRequest .copyActive num payload (replaceShadow fun t => t.sched.active) s)

/-- R194: a slot record. -/
def slotBytes (x : Slot) : List Byte :=
  be16 x.offset ++ [byteOf x.address, byteOf x.number, byteOf x.divisor, byteOf x.phase]

/-- R12, R194: the response of READ_SLOTS for a bank. -/
def slotsReply (bank : List Slot) (offset : Nat) : List Byte :=
  let above := bank.filter fun x => offset ≤ x.offset
  [byteOf bank.length, byteOf (above.take 8).length, flagByte (decide (8 < above.length))] ++
    (above.take 8).flatMap slotBytes

/-- R12. -/
def ownReadSlots (payload : List Byte) (s : State) : State × Reply :=
  match bankOf (payload.getD 0 0) with
  | some .active => (s, .okWith (slotsReply s.sched.active (field16 payload 1)))
  | some .shadow => (s, .okWith (slotsReply s.sched.shadow (field16 payload 1)))
  | none => refuse .badArgument s

/-- READ_SLOTS (R12). -/
def execReadSlots (num : Word16) (payload : List Byte) (s : State) : Host.Outcome State Fault Refusal :=
  .next (takeRequest .readSlots num payload (ownReadSlots payload) s)

/-! ## Swapping banks (R13-R15) -/

/-- R13: the exchange. The shadow bank is then a copy of the new active bank. -/
def exchangeBanks (s : State) : State := s.setSched { s.sched with active := s.sched.shadow }

/-- R14. -/
def ownSwap (s : State) : State × Reply :=
  match s.sched.mode with
  | .config => accept (exchangeBanks s)
  | .run =>
    if s.sched.swapPending then refuse .busy s else accept (s.setSched { s.sched with swapPending := true })
  | .stopping => refuse .busy s

/-- SWAP (R14). -/
def execSwap (num : Word16) (payload : List Byte) (s : State) : Host.Outcome State Fault Refusal :=
  .next (takeRequest .swap num payload ownSwap s)

/-- R15. -/
def ownCancelSwap (s : State) : State × Reply :=
  if s.sched.swapPending then accept (s.setSched { s.sched with swapPending := false }) else refuse .notFound s

/-- CANCEL_SWAP (R15). -/
def execCancelSwap (num : Word16) (payload : List Byte) (s : State) : Host.Outcome State Fault Refusal :=
  .next (takeRequest .cancelSwap num payload ownCancelSwap s)

/-! ## The boundary (R16, R17, R19, R23, R39, R82) -/

/-- R17: the due slots of the ending cycle that have not started, in ascending order of offset (log 12). -/
def overrunSlots (s : State) : List Slot :=
  s.sched.active.filter fun x =>
    x.due s.sched.cycle && (s.sched.waiting.contains x.offset || !s.sched.presented.contains x.offset)

/-- R19: the slots of a cycle whose MARK never went out are recorded as OVERRUN at the boundary, those skipped LATE at the
end of their spans among them (R21, log 11). Only the first skip's reason and instant are ever shown. -/
def SkipSummary.lateAsOverrun (now : Nat) (m : SkipSummary) : SkipSummary :=
  match m.first with
  | some x =>
    if x.reason = .late then
      { m with first := some (firstSkip m.firstCue { x with reason := .overrun, instant := now }) }
    else m
  | none => m

/-- R19: the skips of a cycle whose MARK never went out. -/
def overrunLate (s : State) : State :=
  if s.sched.markWaiting then s.setSched { s.sched with summary := s.sched.summary.lateAsOverrun s.now } else s

/-- R17: each is skipped with reason OVERRUN. -/
def skipOverruns (s : State) : State :=
  let t := overAll (overrunSlots s) (fun x => recordSkip x.offset .overrun) s
  t.setSched { t.sched with waiting := [] }

/-- R19, R195: the body of CYCLE_LATE. -/
def cycleLateBody (cycle : Word32) (delay : Nat) (sent : Bool) : List Byte :=
  be32 cycle.toNat ++ be32 delay ++ [flagByte sent]

/-- R19: a MARK that never started is dropped. -/
def dropMark (s : State) : State :=
  if s.sched.markWaiting then
    raiseReport .cycleLate (cycleLateBody s.sched.cycle s.sched.params.period false)
      (latchCycleLate (s.setSched { s.sched with markWaiting := false }))
  else s

/-- R14, R17 step 1: a pending swap is carried out. -/
def carryOutSwap (s : State) : State :=
  if s.sched.swapPending then
    let s := exchangeBanks (s.setSched { s.sched with swapPending := false })
    raiseReport .swapDone (be32 (s.sched.cycle + 1).toNat ++ [byteOf s.sched.active.length]) s
  else s

/-- R16, R17 step 2: the next cycle's number and nominal start. -/
def openCycle (s : State) : State :=
  s.setSched { s.sched with cycle := s.sched.cycle + 1, cycleStart := s.boundaryAt, presented := [] }

/-- R82: one point ages. -/
def Point.aged (p : Point) : Point :=
  let age := min 65535 (p.age + 1)
  { p with age := age, quality := if p.quality = .good ∧ p.staleLimit < age then .stale else p.quality }

/-- R82: the cache ages every point. -/
def agePoints (s : State) : State := changePoints Point.aged s.points s

/-- R39: FOREIGN expires by whole cycles. -/
def expireForeignByCycle (s : State) : State :=
  let s := if s.conds.foreign.active && !s.txn.seenThisCycle then deactivate .foreign s else s
  s.setTxn { s.txn with seenThisCycle := false }

/-- R23: SLOTS_SKIPPED for the cycle that ended, and the summary is emptied. -/
def reportSkips (ended : Word32) (s : State) : State :=
  let t :=
    match s.sched.summary.first with
    | some x =>
      raiseReport .slotsSkipped
        (be32 ended.toNat ++ [byteOf s.sched.summary.count] ++ be16 x.offset ++ [skipReasonCode x.reason]) s
    | none => s
  t.setSched { t.sched with summary := .empty }

/-- R17: a boundary falls: the ending cycle is closed, then steps 1 to 5. -/
def crossBoundary (s : State) : State :=
  let ended := s.sched.cycle
  let s := dropMark (skipOverruns (overrunLate s))
  let s := openCycle (carryOutSwap s)
  let s := agePoints s
  let s := s.setGap { s.gap with probesStarted := 0 }
  let s := expireForeignByCycle s
  let s := reportSkips ended s
  s.setSched { s.sched with markWaiting := true }

/-- BOUNDARY (R17): falls at its nominal instant in RUN (R16). -/
def execBoundary (s : State) : Host.Outcome State Fault Refusal :=
  .next (unlessInReset (fun s => if s.sched.mode = .run then crossBoundary (s.reach s.boundaryAt) else s) s)

/-! ## MARK and slots (R18-R21) -/

/-- R27: a record handed to the idle transaction unit, taken in WAITING_LINE. -/
def handOver (origin : Origin) (kind : FrameKind) (target : Nat) (body : List Byte) (expected : Option Expected)
    (s : State) : State :=
  s.setTxn { s.txn with
    record := some { origin := origin, kind := kind, target := target, body := body, expected := expected
                     phase := .waitingLine s.now, abandonAtEnd := false } }

/-- R18: the MARK of the current cycle is handed over. -/
def startMark (s : State) : State :=
  let s := s.setSched { s.sched with markWaiting := false }
  handOver (.mark s.sched.cycle s.sched.cycleStart) .mark Config.allStations
    (markBody s.sched.cycle s.sched.params.period) none s

/-- MARK_START (R18): a waiting MARK goes out as soon as the line permits. -/
def execMarkStart (s : State) : Host.Outcome State Fault Refusal :=
  .next (unlessInReset (fun s =>
    if s.sched.mode = .run ∧ s.sched.markWaiting ∧ s.linePermits then startMark s else s) s)

/-- R20: the nominal time of a due slot is taken. -/
def presentSlot (x : Slot) (s : State) : State :=
  let s := s.setSched { s.sched with presented := insertOffset x.offset s.sched.presented }
  if s.stationActive x.address then
    s.setSched { s.sched with waiting := insertOffset x.offset s.sched.waiting }
  else countAbsent s

/-- The slot of the active bank at an offset that is due in the current cycle and not yet presented. -/
def slotComing (offset : Nat) (s : State) : Option Slot :=
  (slotAt s.sched.active offset).filter fun x => x.due s.sched.cycle && !s.sched.presented.contains offset

/-- SLOT_DUE (R20): the slot's nominal time comes in RUN. -/
def execSlotDue (offset : Nat) (s : State) : Host.Outcome State Fault Refusal :=
  .next (unlessInReset (fun s =>
    match slotComing offset s with
    | some x => if s.sched.mode = .run then presentSlot x (s.reach (s.nominalAt offset)) else s
    | none => s) s)

/-- The last instant at which a waiting slot may start (R21). -/
def slotSpanEnd (offset : Nat) (s : State) : Nat := s.nominalAt (offset + s.sched.params.tolerance)

/-- R20, R27: a waiting slot is handed over as a CUE. -/
def startSlot (x : Slot) (s : State) : State :=
  handOver (.slot x.offset) .cue x.address (cueBody x.address x.number) (some (.pub x.address x.number))
    (s.setSched { s.sched with waiting := s.sched.waiting.filter (· != x.offset) })

/-- The first waiting slot. -/
def firstWaiting (s : State) : Option Slot := s.sched.waiting.head?.bind (slotAt s.sched.active)

/-- SLOT_START (R20, R21): the first waiting slot starts when the line permits, within its span, no MARK waiting. -/
def execSlotStart (s : State) : Host.Outcome State Fault Refusal :=
  .next (unlessInReset (fun s =>
    match firstWaiting s with
    | some x =>
      if s.sched.mode = .run ∧ ¬ s.sched.markWaiting ∧ s.linePermits ∧ s.now ≤ slotSpanEnd x.offset s then startSlot x s
      else s
    | none => s) s)

/-- R21: a waiting slot is skipped LATE. -/
def skipLate (offset : Nat) (s : State) : State :=
  recordSkip offset .late (s.setSched { s.sched with waiting := s.sched.waiting.filter (· != offset) })

/-- SLOT_LATE (R21): the span of a waiting slot ends. -/
def execSlotLate (offset : Nat) (s : State) : Host.Outcome State Fault Refusal :=
  .next (unlessInReset (fun s =>
    if s.sched.waiting.contains offset then skipLate offset (s.reach (slotSpanEnd offset s)) else s) s)

end Sys2Proof.Machine
end

