-- ==== Sys2Proof/Machine/GapWork.lean ====
section
/-! DEFINITION. Chapter 5: the gap arbiter (R89-R101): the opportunity, the horizon, worst-case durations (R41), and the
candidates in their order. -/

namespace Sys2Proof.Machine

/-- R90: an opportunity exists. -/
def State.opportunity (s : State) : Bool :=
  s.sched.mode == .run && s.linePermits && !s.sched.markWaiting && s.sched.waiting.isEmpty

/-- R91: the slot lies ahead: due in this cycle, its nominal time later than now or not yet taken. -/
def slotAhead (s : State) (x : Slot) : Bool :=
  x.due s.sched.cycle && (decide (s.now < s.nominalAt x.offset) || !s.sched.presented.contains x.offset)

/-- R91: the horizon. The banks are in ascending offset, so the first slot ahead is the earliest. -/
def State.horizon (s : State) : Nat :=
  match s.sched.active.find? (slotAhead s) with
  | some x => min (s.nominalAt x.offset) s.boundaryAt
  | none => s.boundaryAt

/-- R41: the worst-case duration, in bit times, of a record with a body of a bytes and an answer of at most b. -/
def worstBits (window a b : Nat) : Nat := 8 + (8 * a + 40) + window + 32 + (8 * b + 40)

/-- R92: a candidate fits. -/
def State.fits (s : State) (a b : Nat) : Bool :=
  decide (bitsToTicks s.sched.params.rate (worstBits s.sched.params.window a b) ≤ ticksBetween s.now s.horizon)

/-- What considering a candidate leads to. -/
inductive GapResult where
  | started (s : State)
  | passed (s : State)
  deriving DecidableEq, Repr

/-- R93: go on to the next candidate unless one has started. -/
def GapResult.orNext (r : GapResult) (f : State → GapResult) : GapResult :=
  match r with
  | .started s => .started s
  | .passed s => f s

/-- The state a consideration leaves. -/
def GapResult.state : GapResult → State
  | .started s => s
  | .passed s => s

/-! ## Position 1: triggers (R94, R100) -/

/-- R99, R100, R149: a triggered CUE starts. -/
def startTrigger (i : Fin 8) (k : Key) (s : State) : State :=
  handOver (.trigger i) .cue k.address (cueBody k.address k.number) (some (.pub k.address k.number))
    (changeInput i (fun l => { l with cueOnLine := true }) s)

/-- R94: one pending trigger. -/
def considerTrigger (i : Fin 8) (s : State) : GapResult :=
  match s.lines.records[i] with
  | .input l =>
    match l.binding with
    | some k =>
      if !l.pending then .passed s
      else if !s.stationActive k.address then .passed (dropTrigger i k .absent s)
      else
        match s.point k with
        | some p => if s.fits 3 (4 + p.length) then .started (startTrigger i k s) else .passed s
        | none => .passed s
    | none => .passed s
  | _ => .passed s

/-- R94: the pending triggers in ascending line number. -/
def considerTriggers (s : State) : GapResult :=
  allLines.foldl (fun r i => r.orNext (considerTrigger i)) (.passed s)

/-! ## Positions 2 to 4: messages and notes (R95-R97) -/

/-- R95, R103: the message the outbound queue offers in a class. -/
def offeredMessage (c : MessageClass) (s : State) : Option Message :=
  match s.outbound.find? (·.state == .inFlight) with
  | some m => if m.cls = c ∧ ¬ m.onLine then some m else none
  | none => s.outbound.find? fun m => m.state == .queued && m.cls == c

/-- R107: an attempt begins. -/
def Message.attempted (m : Message) : Message := { m with state := .inFlight, made := m.made + 1, onLine := true }

/-- R97: the alternation after a SEND of a class starts. -/
def afterSend (c : MessageClass) (x : Alternation) : Alternation :=
  match c with
  | .normal => .fetch
  | .urgent => x

/-- R97, R99, R107: a SEND starts. -/
def startSend (m : Message) (s : State) : State :=
  handOver (.outbound m.tag) .send m.destination (sendBody m.destination m.tag m.payload)
    (some (.reply m.destination m.tag))
    ((changeMessage m.tag Message.attempted s).setGap { s.gap with alternation := afterSend m.cls s.gap.alternation })

/-- R95: the candidate of a class. -/
def considerMessage (c : MessageClass) (s : State) : GapResult :=
  match offeredMessage c s with
  | some m => if s.fits (3 + m.payload.length) 51 then .started (startSend m s) else .passed s
  | none => .passed s

/-- R96, R97, R118: a FETCH starts. -/
def startFetch (a : Nat) (rest : List Nat) (s : State) : State :=
  handOver .fetch .fetch a (fetchBody a) (some (.note a))
    (((takeReservation s).setAttention rest).setGap { s.gap with alternation := .normal })

/-- R96: the head of the attention list. -/
def considerFetch (s : State) : GapResult :=
  match s.attention with
  | a :: rest => if s.canReserve && s.fits 2 50 then .started (startFetch a rest s) else .passed s
  | [] => .passed s

/-- R97: positions 3 and 4. -/
def considerAlternating (s : State) : GapResult :=
  match s.gap.alternation with
  | .fetch => (considerFetch s).orNext (considerMessage .normal)
  | .normal => (considerMessage .normal s).orNext considerFetch

/-! ## Position 5: probes (R48, R98) -/

/-- R48: the addresses in the order of the search from the probe pointer. -/
def probeOrder (pointer : Nat) : List Nat :=
  (List.range Config.stationCount).map fun k => (pointer - 1 + k) % Config.stationCount + 1

/-- R48: the probe candidate. -/
def State.probeCandidate (s : State) : Option Nat :=
  (probeOrder s.roster.probePointer).find? fun a => (s.entry a).state == .vacant || (s.entry a).state == .lost

/-- R48: where the probe pointer moves past an address. -/
def pointerPast (a : Nat) : Nat := if a = Config.stationCount then 1 else a + 1

/-- R98, R48: a ROLL starts. -/
def startRoll (a : Nat) (s : State) : State :=
  handOver .probe .roll a (rollBody a) (some (.answer a))
    ((s.setGap { s.gap with probesStarted := s.gap.probesStarted + 1 }).setRoster
      { s.roster with probePointer := pointerPast a })

/-- R98: the ROLL at the probe candidate. -/
def considerRoll (s : State) : GapResult :=
  match s.probeCandidate with
  | some a =>
    if decide (s.gap.probesStarted < s.sched.params.probes) && s.fits 2 10 then .started (startRoll a s) else .passed s
  | none => .passed s

/-! ## The consideration (R93) -/

/-- R93: the candidates in order. -/
def consider (s : State) : GapResult :=
  (((considerTriggers s).orNext (considerMessage .urgent)).orNext considerAlternating).orNext considerRoll

/-- GAP_CONSIDERATION (R93): in an opportunity, the arbiter goes through the candidates. -/
def execGapConsideration (s : State) : Host.Outcome State Fault Refusal :=
  .next (unlessInReset (fun s => if s.opportunity then (consider s).state else s) s)

end Sys2Proof.Machine
end

