-- ==== Sys2Proof/Machine/PointRequests.lean ====
section
/-! DEFINITION. Chapter 4: the requests on the point cache (R72-R75). -/

namespace Sys2Proof.Machine

/-- The key a payload names in its first two bytes. -/
def keyOf (payload : List Byte) : Key := { address := field8 payload 0, number := field8 payload 1 }

/-- R70: the key is in range. -/
def Key.valid (k : Key) : Bool := stationAddress k.address && decide (k.number ≤ 15)

/-- R70: the order of keys. -/
def Key.before (k l : Key) : Bool :=
  decide (k.address < l.address) || (k.address == l.address && decide (k.number < l.number))

/-- Insert a record in key order. -/
def insertPoint (p : Point) : List Point → List Point
  | [] => [p]
  | q :: qs => if p.key.before q.key then p :: q :: qs else q :: insertPoint p qs

/-- R72: the quality of a new record. -/
def newQuality (a : Nat) (s : State) : Quality :=
  if s.sched.mode = .run then (if s.stationActive a then .never else .noSource) else .offline

/-- R72: a new record. -/
def newPoint (k : Key) (length staleLimit : Nat) (q : Quality) : Point :=
  { key := k, length := length, value := List.replicate length 0, status := 0, quality := q, age := 0
    staleLimit := staleLimit, updates := 0, lastUpdate := none, watch := .off }

/-- R72 check 1. -/
def declareInRange (k : Key) (length staleLimit : Nat) : Bool :=
  k.valid && decide (1 ≤ length) && decide (length ≤ 32) && decide (1 ≤ staleLimit)

/-- R72: the checks in order. -/
def ownDeclare (payload : List Byte) (s : State) : State × Reply :=
  let k := keyOf payload
  if !declareInRange k (field8 payload 2) (field8 payload 3) then refuse .badArgument s
  else if (s.point k).isSome then refuse .exists_ s
  else if Config.pointCapacity ≤ s.points.length then refuse .full s
  else accept (s.setPoints
    (insertPoint (newPoint k (field8 payload 2) (field8 payload 3) (newQuality k.address s)) s.points))

/-- DECLARE (R72). -/
def execDeclare (num : Word16) (payload : List Byte) (s : State) : Host.Outcome State Fault Refusal :=
  .next (takeRequest .declare num payload (ownDeclare payload) s)

/-- The lowest offset of a bank at which a slot names the point. -/
def slotNaming (k : Key) (bank : List Slot) : Option Nat := (bank.find? fun x => x.key == k).map (·.offset)

/-- The line's trigger binding. -/
def LineRecord.trigger : LineRecord → Option Key
  | .input l => l.binding
  | .off => none
  | .outputHost _ => none
  | .outputMirror _ => none

/-- The line's mirror binding. -/
def LineRecord.mirror : LineRecord → Option Key
  | .outputMirror l => some l.binding
  | .off => none
  | .input _ => none
  | .outputHost _ => none

/-- The lowest line whose binding, as `bound` reads it, names the point. -/
def lineNaming (k : Key) (bound : LineRecord → Option Key) (s : State) : Option Nat :=
  (allLines.find? fun i => bound s.lines.records[i] == some k).map (·.val)

/-- R73: the first reference to a point, with its lowest offset or line. -/
def referenceTo (k : Key) (s : State) : Option (ReferenceKind × Nat) :=
  ((slotNaming k s.sched.active).map fun o => (ReferenceKind.activeSlot, o)) <|>
    ((slotNaming k s.sched.shadow).map fun o => (ReferenceKind.shadowSlot, o)) <|>
      ((lineNaming k LineRecord.trigger s).map fun i => (ReferenceKind.trigger, i)) <|>
        ((lineNaming k LineRecord.mirror s).map fun i => (ReferenceKind.mirror, i))

/-- R73: the checks in order. -/
def ownWithdraw (payload : List Byte) (s : State) : State × Reply :=
  let k := keyOf payload
  if !k.valid then refuse .badArgument s
  else if (s.point k).isNone then refuse .notFound s
  else
    match referenceTo k s with
    | some (kind, n) => (s, { result := .referenced, extra := referenceKindCode kind :: be16 n })
    | none => accept (s.setPoints (s.points.filter fun p => p.key != k))

/-- WITHDRAW (R73). -/
def execWithdraw (num : Word16) (payload : List Byte) (s : State) : Host.Outcome State Fault Refusal :=
  .next (takeRequest .withdraw num payload (ownWithdraw payload) s)

/-- R74, R194: the bytes of a record. -/
def pointBytes (p : Point) : List Byte :=
  [byteOf p.key.address, byteOf p.key.number, byteOf p.length, p.status, qualityCode p.quality] ++ be16 p.age ++
    [byteOf p.staleLimit] ++ be16 p.updates.toNat ++ optCycleBytes p.lastUpdate ++ p.value

/-- R74. -/
def ownReadPoint (payload : List Byte) (s : State) : State × Reply :=
  if !(keyOf payload).valid then refuse .badArgument s
  else
    match s.point (keyOf payload) with
    | some p => (s, .okWith (pointBytes p))
    | none => refuse .notFound s

/-- READ_POINT (R74). -/
def execReadPoint (num : Word16) (payload : List Byte) (s : State) : Host.Outcome State Fault Refusal :=
  .next (takeRequest .readPoint num payload (ownReadPoint payload) s)

/-- R75. -/
def ownWatch (payload : List Byte) (s : State) : State × Reply :=
  match (keyOf payload).valid, watchModeOf (payload.getD 2 0) with
  | true, some w =>
    match s.point (keyOf payload) with
    | some p => accept (s.setPoints (replacePoint s.points { p with watch := w }))
    | none => refuse .notFound s
  | _, _ => refuse .badArgument s

/-- WATCH (R75). -/
def execWatch (num : Word16) (payload : List Byte) (s : State) : Host.Outcome State Fault Refusal :=
  .next (takeRequest .watch num payload (ownWatch payload) s)

end Sys2Proof.Machine
end

