-- ==== Sys2Proof/Machine/LocalLines.lean ====
section
/-! DEFINITION. Chapter 8: the requests on the local lines (R144, R151, R154), their edges and triggers (R146-R148), and
the forcing to safe levels (R152). -/

namespace Sys2Proof.Machine

/-! ## SET_LINE (R144, R145) -/

/-- R144: what a SET_LINE payload asks for, once its fields are in range. -/
inductive LineRequest where
  | off
  | input (edge : EdgeSetting) (filter : Nat) (reportEdge : Bool) (binding : Option Key)
  | outputHost (safe : SafeLevel) (initial : Level)
  | outputMirror (safe : SafeLevel) (initial : Level) (binding : Key) (byteIndex bitIndex : Nat) (invert : Bool)
  deriving DecidableEq, Repr

/-- The line a byte names. -/
def lineOf (b : Byte) : Option (Fin 8) := if h : b.toNat < 8 then some ⟨b.toNat, h⟩ else none

/-- R191: an optional key: presence flag, address, point number. An absent key's bytes are not examined (log 17). -/
def optKeyOf (present a n : Byte) : Option (Option Key) :=
  match flagOf present with
  | some true =>
    let k : Key := { address := a.toNat, number := n.toNat }
    if k.valid then some (some k) else none
  | some false => some none
  | none => none

/-- R193: the fields of an INPUT line. -/
def inputRequest : List Byte → Option LineRequest
  | [edge, filter, report, present, a, n] => do
    let e ← edgeSettingOf edge
    let r ← flagOf report
    let k ← optKeyOf present a n
    if filter.toNat ≤ 15 then some (.input e filter.toNat r k) else none
  | _ => none

/-- R193: the fields of an OUTPUT_HOST line. -/
def hostRequest : List Byte → Option LineRequest
  | [safe, initial] => do
    let l ← safeLevelOf safe
    let i ← levelOf initial
    some (.outputHost l i)
  | _ => none

/-- R193: the fields of an OUTPUT_MIRROR line. -/
def mirrorRequest : List Byte → Option LineRequest
  | [safe, initial, a, n, byteIndex, bitIndex, invert] => do
    let l ← safeLevelOf safe
    let i ← levelOf initial
    let v ← flagOf invert
    let k : Key := { address := a.toNat, number := n.toNat }
    if k.valid && decide (bitIndex.toNat ≤ 7) then some (.outputMirror l i k byteIndex.toNat bitIndex.toNat v) else none
  | _ => none

/-- R144 check 1: the line and the request; none for BAD_ARGUMENT. -/
def lineRequestOf : List Byte → Option (Fin 8 × LineRequest)
  | line :: mode :: fields =>
    match lineOf line with
    | none => none
    | some i =>
      match mode.toNat with
      | 0 => if fields = [] then some (i, .off) else none
      | 1 => (inputRequest fields).map fun r => (i, r)
      | 2 => (hostRequest fields).map fun r => (i, r)
      | 3 => (mirrorRequest fields).map fun r => (i, r)
      | _ => none
  | _ => none

/-- R145: a new INPUT line, its filtered level the pin level read. -/
def newInput (edge : EdgeSetting) (filter : Nat) (reportEdge : Bool) (binding : Option Key) (pin : Level) : LineRecord :=
  .input { edge := edge, filter := filter, filtered := pin, edgeCount := 0, reportEdge := reportEdge
           binding := binding, pending := false, cueOnLine := false, differsSince := none }

/-- R145: a new OUTPUT_HOST line. -/
def newHost (safe : SafeLevel) (initial : Level) : LineRecord :=
  .outputHost { safe := safe, current := initial, held := initial, forcedSafe := false }

/-- R145: a new OUTPUT_MIRROR line of a point. -/
def newMirror (safe : SafeLevel) (initial : Level) (byteIndex bitIndex : Nat) (invert : Bool) (p : Point) : LineRecord :=
  .outputMirror (MirrorLine.shown
    { safe := safe, current := initial, held := initial, binding := p.key, byteIndex := byteIndex
      bitIndex := bitIndex, invert := invert } p.quality p.value)

/-- R144 checks 2 and 3, R145. -/
def configureLine (i : Fin 8) (r : LineRequest) (s : State) : State × Reply :=
  match r with
  | .off => accept (putLine i .off s)
  | .input edge filter report none => accept (putLine i (newInput edge filter report none s.lines.pins[i]) s)
  | .input edge filter report (some k) =>
    if (s.point k).isNone then refuse .notFound s
    else accept (putLine i (newInput edge filter report (some k) s.lines.pins[i]) s)
  | .outputHost safe initial => accept (putLine i (newHost safe initial) s)
  | .outputMirror safe initial k byteIndex bitIndex invert =>
    match s.point k with
    | none => refuse .notFound s
    | some p =>
      if byteIndex < p.length then accept (putLine i (newMirror safe initial byteIndex bitIndex invert p) s)
      else refuse .badArgument s

/-- R144. -/
def ownSetLine (payload : List Byte) (s : State) : State × Reply :=
  match lineRequestOf payload with
  | none => refuse .badArgument s
  | some (i, r) => configureLine i r s

/-- SET_LINE (R144, R145). -/
def execSetLine (num : Word16) (payload : List Byte) (s : State) : Host.Outcome State Fault Refusal :=
  .next (takeRequest .setLine num payload (ownSetLine payload) s)

/-! ## WRITE_LINE and READ_LINES (R151, R154) -/

/-- R151. -/
def ownWriteLine (payload : List Byte) (s : State) : State × Reply :=
  match lineOf (payload.getD 0 0), levelOf (payload.getD 1 0) with
  | some i, some v =>
    match s.lines.records[i] with
    | .outputHost l => accept (putLine i (.outputHost { l with current := v, held := v, forcedSafe := false }) s)
    | _ => refuse .wrongState s
  | _, _ => refuse .badArgument s

/-- WRITE_LINE (R151). -/
def execWriteLine (num : Word16) (payload : List Byte) (s : State) : Host.Outcome State Fault Refusal :=
  .next (takeRequest .writeLine num payload (ownWriteLine payload) s)

/-- R154: the mirrored line's point is not GOOD. -/
def showingSafe (l : MirrorLine) (s : State) : Bool :=
  match s.point l.binding with
  | some p => p.quality != .good
  | none => true

/-- R154, R194: the seven bytes of a line. -/
def lineBytes (s : State) (i : Fin 8) : List Byte :=
  let pin := levelCode s.lines.pins[i]
  match s.lines.records[i] with
  | .off => [0, pin, 0, 0, 0, 0, 0]
  | .input l =>
    [1, pin, levelCode l.filtered] ++ be16 l.edgeCount.toNat ++ [flagByte l.pending, flagByte l.cueOnLine]
  | .outputHost l => [2, pin, levelCode l.current, levelCode l.held, flagByte l.forcedSafe, 0, 0]
  | .outputMirror l => [3, pin, levelCode l.current, levelCode l.held, flagByte (showingSafe l s), 0, 0]

/-- READ_LINES (R154). -/
def execReadLines (num : Word16) (payload : List Byte) (s : State) : Host.Outcome State Fault Refusal :=
  .next (takeRequest .readLines num payload (fun t => (t, .okWith (allLines.flatMap (lineBytes t)))) s)

/-! ## Edges (R146-R148) -/

/-- R146: the edge a change of the filtered level to a new level makes. -/
def edgeTo : Level → Edge
  | .high => .rise
  | .low => .fall

/-- R146: the change matches the edge setting. -/
def edgeCounts : EdgeSetting → Edge → Bool
  | .rise, e => e == .rise
  | .fall, e => e == .fall
  | .both, _ => true

/-- R147, R195: the timestamp: CONFIG flag, four bytes, two bytes. -/
def edgeStamp (s : State) : List Byte :=
  match s.sched.mode with
  | .run =>
    [0] ++ be32 s.sched.cycle.toNat ++ be16 (min (ticksBetween s.sched.cycleStart s.now) (s.sched.params.period - 1))
  | .stopping => [0] ++ be32 s.sched.cycle.toNat ++ be16 (min (ticksBetween s.sched.cycleStart s.now) 65535)
  | .config => [1] ++ be32 (ticksBetween s.sched.configSince s.now) ++ be16 0

/-- R148: an edge in RUN sets the trigger of a bound line, or merges into it. -/
def InputLine.triggered (mode : Mode) (l : InputLine) : InputLine :=
  if mode = .run ∧ l.binding.isSome then { l with pending := true } else l

/-- R146-R148: the filtered level changes to a new level. -/
def changeFiltered (i : Fin 8) (l : InputLine) (v : Level) (s : State) : State :=
  let e := edgeTo v
  if edgeCounts l.edge e then
    let s := putLine i (.input { l with filtered := v, differsSince := none, edgeCount := l.edgeCount + 1 }) s
    let s := if l.reportEdge then raiseReport .lineEdge ([byteOf i.val, edgeCode e] ++ edgeStamp s) s else s
    changeInput i (InputLine.triggered s.sched.mode) s
  else putLine i (.input { l with filtered := v, differsSince := none }) s

/-- The level at a pin changes. -/
def setPin (i : Fin 8) (v : Level) (s : State) : State :=
  s.setLines { s.lines with pins := s.lines.pins.set i v }

/-- R146: an INPUT line sees its pin at a new level. -/
def seePin (i : Fin 8) (v : Level) (s : State) : State :=
  match s.lines.records[i] with
  | .input l =>
    if v = l.filtered then putLine i (.input { l with differsSince := none }) s
    else if l.filter = 0 then changeFiltered i l v s
    else putLine i (.input { l with differsSince := some s.now }) s
  | _ => s

/-- R146: the instant at which the pin will have differed from the filtered level for the filter time. -/
def InputLine.filterEnd (l : InputLine) (pin : Level) : Option Nat :=
  if pin = l.filtered then none else l.differsSince.map fun t => t + l.filter * Config.tickClocks

/-- R146: a change that has lasted the filter time is taken, though the pin changes at the very instant that time ends. -/
def takeLasting (i : Fin 8) (s : State) : State :=
  match s.lines.records[i] with
  | .input l =>
    match l.filterEnd s.lines.pins[i] with
    | some t => if t ≤ s.now then changeFiltered i l s.lines.pins[i] s else s
    | none => s
  | _ => s

/-- LOCAL_LINE_PIN_CHANGE (R146). While the part is held in reset only the level at the pin changes. -/
def execLocalLinePinChange (line : Fin 8) (level : Level) (s : State) : Host.Outcome State Fault Refusal :=
  .next (if s.lines.pins[line] = level then s
    else unlessInReset (seePin line level) (setPin line level (unlessInReset (takeLasting line) s)))

/-- INPUT_FILTER_EXPIRED (R146): the pin has differed from the filtered level for the filter time. -/
def execInputFilterExpired (line : Fin 8) (s : State) : Host.Outcome State Fault Refusal :=
  .next (unlessInReset (fun s =>
    match s.lines.records[line] with
    | .input l =>
      match l.filterEnd s.lines.pins[line] with
      | some t => changeFiltered line l s.lines.pins[line] (s.reach t)
      | none => s
    | _ => s) s)

/-! ## Host silence (R152) -/

/-- R152: an OUTPUT_HOST line goes to its safe level. -/
def HostLine.forced (l : HostLine) : HostLine :=
  { l with current := safeShown l.safe l.current, forcedSafe := true }

/-- R152: every OUTPUT_HOST line, in ascending line number. -/
def forceOutputsSafe (s : State) : State :=
  overAll allLines (fun i t =>
    match t.lines.records[i] with
    | .outputHost l => putLine i (.outputHost l.forced) t
    | _ => t) s

end Sys2Proof.Machine
end

