-- ==== Sys2Proof/Machine/HostLinkEvents.lean ====
section
/-! DEFINITION. Chapter 10: the link's own requests (R173, R185-R187, UNKNOWN_REQUEST of R179), its events (R173, R175,
R176, R183), host silence (R184) and the resets (R188). -/

namespace Sys2Proof.Machine

/-! ## Requests of the link -/

/-- R185, R194: the 13 bytes of IDENTIFY. -/
def identifyBytes : List Byte :=
  be16 Config.makerCode ++ be16 Config.partCode ++
    [byteOf Config.revision, byteOf Config.stationCount, byteOf Config.slotsPerBank, byteOf Config.pointCapacity,
     byteOf Config.messageCapacity, byteOf Config.reportPlaces, byteOf Config.reportWindow, byteOf allLines.length,
     byteOf Config.maxPayload]

/-- IDENTIFY (R185). -/
def execIdentify (num : Word16) (payload : List Byte) (s : State) : Host.Outcome State Fault Refusal :=
  .next (takeRequest .identify num payload (fun t => (t, .okWith identifyBytes)) s)

/-- R186: the cycle group. -/
def statusCycle (s : State) : List Byte :=
  [modeCode s.sched.mode] ++ be32 s.sched.cycle.toNat ++
    [byteOf s.sched.active.length, byteOf s.sched.shadow.length, flagByte s.sched.swapPending] ++
    be32 s.sched.skipTotal.toNat ++ be32 s.sched.absentTally.toNat

/-- R186: the transaction group. -/
def statusTransaction (s : State) : List Byte :=
  (match s.txn.record with
    | some r => [1, phaseCode r.phase, originCode r.origin]
    | none => [0, 0, 0]) ++ be32 s.txn.stray.toNat

/-- R186: the roster group. -/
def statusRoster (s : State) : List Byte :=
  ([RosterState.vacant, .active, .held, .lost, .barred].map fun x =>
    byteOf (s.roster.entries.toList.filter fun e => e.state == x).length) ++ [flagByte s.heldPresent]

/-- The tag of the IN_FLIGHT message, with its presence flag. -/
def inFlightTag (s : State) : List Byte :=
  match s.outbound.find? (·.state == .inFlight) with
  | some m => [1, m.tag]
  | none => [0, 0]

/-- R186: the groups of the point cache, the gap arbiter, and the outbound queue with the attention list. -/
def statusWork (s : State) : List Byte :=
  [byteOf s.points.length, alternationCode s.gap.alternation, byteOf s.gap.probesStarted,
   byteOf (s.outbound.filter (·.cls == .urgent)).length, byteOf (s.outbound.filter (·.cls == .normal)).length] ++
    inFlightTag s ++ [byteOf s.attention.length]

/-- R134, R186: the report queue group. -/
def statusReports (s : State) : List Byte :=
  [byteOf (s.reports.unsent.length + s.reports.sent.length), byteOf s.reports.sent.length,
   byteOf s.reports.reservations] ++ be16 s.reports.lossTally ++ be16 s.reports.counter.toNat

/-- R186: the host link group. -/
def statusLink (s : State) : List Byte :=
  be32 (baud s.link.rate) ++ be16 s.link.timeoutTally ++ be16 s.link.crcTally ++ be16 s.link.formatTally ++
    be16 s.link.overrunTally

/-- R186, R194: the 56 bytes of STATUS. -/
def statusBytes (s : State) : List Byte :=
  statusCycle s ++ statusTransaction s ++ statusRoster s ++ statusWork s ++ statusReports s ++ statusLink s

/-- STATUS (R186). -/
def execStatus (num : Word16) (payload : List Byte) (s : State) : Host.Outcome State Fault Refusal :=
  .next (takeRequest .status num payload (fun t => (t, .okWith (statusBytes t))) s)

/-- R173: a rate other than the one in force takes effect when the response has left TXD. -/
def ownSetLinkRate (payload : List Byte) (s : State) : State × Reply :=
  match linkRateOf (ofBytes (payload.take 4)) with
  | none => refuse .badArgument s
  | some r => if r = s.link.rate then accept s else accept (s.setLink { s.link with newRate := some r })

/-- SET_LINK_RATE (R173). -/
def execSetLinkRate (num : Word16) (payload : List Byte) (s : State) : Host.Outcome State Fault Refusal :=
  .next (takeRequest .setLinkRate num payload (ownSetLinkRate payload) s)

/-- RESTART (R187). -/
def execRestart (num : Word16) (payload : List Byte) (s : State) : Host.Outcome State Fault Refusal :=
  .next (takeRequest .restart num payload (fun t => accept (t.setLink { t.link with restartDue := true })) s)

/-- UNKNOWN_REQUEST (R179 step 2): a request whose CODE names no request. -/
def execUnknownRequest (code : Byte) (num : Word16) (payload : List Byte) (s : State) :
    Host.Outcome State Fault Refusal :=
  .next (if codeKnown code then s
    else takeFrame { code := code, num := num, payload := payload } (fun t => refuse .unknownRequest t) s)

/-! ## Receiving (R175, R176) -/

/-- LINK_BYTE_RECEIVED (R175). -/
def execLinkByteReceived (byte : Byte) (s : State) : Host.Outcome State Fault Refusal :=
  .next (unlessInReset (takeByte byte) s)

/-- LINK_FRAME_RECEIVED (R176): the complete frame is judged. -/
def execLinkFrameReceived (s : State) : Host.Outcome State Fault Refusal :=
  .next (unlessInReset (fun s =>
    match s.link.assembler with
    | .complete bs => judgeFrame bs s
    | _ => s) s)

/-- R175: the format error drops a frame being assembled: a framing error anywhere in it, or a LEN out of range in the
place of LEN. -/
def formatErrorDrops : LinkFault → Assembler → Bool
  | .framing, .assembling _ => true
  | .length b, .assembling [] => !lenInRange b
  | _, _ => false

/-- LINK_FORMAT_ERROR (R175). A complete frame is judged before the faulty byte counts, and a framing error while hunting
is ignored (R172, log 26). -/
def execLinkFormatError (cause : LinkFault) (s : State) : Host.Outcome State Fault Refusal :=
  .next (unlessInReset (fun s =>
    if formatErrorDrops cause s.link.assembler then dropFormat s else s) s)

/-- INTER_BYTE_TIMEOUT (R175): more than 1 ms since the last byte of a frame being assembled (log 27). -/
def execInterByteTimeout (s : State) : Host.Outcome State Fault Refusal :=
  .next (unlessInReset (fun s =>
    match s.link.assembler with
    | .assembling _ =>
      let s := s.reach (s.link.lastByteAt + Config.msClocks + 1)
      s.setLink { s.link with assembler := .hunting, timeoutTally := tallyUp s.link.timeoutTally }
    | _ => s) s)

/-! ## Transmitting (R183, R173, R187) -/

/-- R173, R187: what follows a response that has left TXD. -/
def afterResponse (s : State) : State :=
  if s.link.restartDue then softResetPart s
  else
    match s.link.newRate with
    | some r => applyRate r s
    | none => s

/-- R172, R183: the last stop bit of the frame being sent has left TXD; a waiting response goes out. The report queue's
offer is REPORT_TAKEN (log 5), and a rate change or reset that waited for the response comes about at this instant, under
whichever of its rows comes first (log 18). -/
def finishFrame (s : State) : State :=
  match s.link.sending with
  | none => s
  | some f =>
    let s := s.reach (s.frameEnd f)
    let s := s.setLink { s.link with sending := none }
    startWaiting (if f.cls = classResponse then afterResponse s else s)

/-- LINK_FRAME_SENT (R183). -/
def execLinkFrameSent (s : State) : Host.Outcome State Fault Refusal := .next (unlessInReset finishFrame s)

/-- LINK_RATE_CHANGE (R173): the response to SET_LINK_RATE has left TXD. -/
def execLinkRateChange (s : State) : Host.Outcome State Fault Refusal :=
  .next (unlessInReset (fun s => if s.link.newRate.isSome && s.link.sendingResponse then finishFrame s else s) s)

/-- SOFT_RESET (R187): the response to RESTART has left TXD. -/
def execSoftReset (s : State) : Host.Outcome State Fault Refusal :=
  .next (unlessInReset (fun s => if s.link.restartDue && s.link.sendingResponse then finishFrame s else s) s)

/-! ## Resets by pin and power (R188) -/

/-- RESET_PIN_ASSERTED (R188). -/
def execResetPinAsserted (s : State) : Host.Outcome State Fault Refusal := .next (holdInReset s)

/-- HARD_RESET (R188): power-up, or the release of the RESET pin. -/
def execHardReset (cause : HardCause) (s : State) : Host.Outcome State Fault Refusal := .next (hardResetPart cause s)

/-! ## Host silence (R184) -/

/-- R184: the instant at which the host-silence timer runs out. -/
def State.silenceEnd (s : State) : Nat := s.link.silenceStart + s.sched.params.holdTime * Config.msClocks

/-- HOST_SILENT_TIMEOUT (R184): the timer, running and not yet run out, reaches the hold time. -/
def execHostSilentTimeout (s : State) : Host.Outcome State Fault Refusal :=
  .next (unlessInReset (fun s =>
    if s.sched.params.holdTime ≠ 0 ∧ ¬ s.conds.hostSilent.active then
      forceOutputsSafe (activate .hostSilent (s.reach s.silenceEnd))
    else s) s)

end Sys2Proof.Machine
end

