-- ==== Sys2Proof/Machine/MessageRequests.lean ====
section
/-! DEFINITION. Chapter 6: the requests on the outbound queue (R105, R106, R114, R115). -/

namespace Sys2Proof.Machine

/-- The message a SEND payload describes, as it joins the queue (R106); none when check 1 of R105 fails. -/
def messageOf (p : List Byte) : Option Message :=
  match messageClassOf (p.getD 2 0) with
  | none => none
  | some c =>
    let body := p.drop 4
    if stationAddress (field8 p 0) && decide (1 ≤ field8 p 3) && decide (field8 p 3 ≤ 4) && decide (1 ≤ body.length) &&
        decide (body.length ≤ 48) then
      some { tag := p.getD 1 0, destination := field8 p 0, cls := c, payload := body, limit := field8 p 3, made := 0
             state := .queued, onLine := false, gone := false }
    else none

/-- R194: the reasons of FULL. -/
def fullQueue : Reply := { result := .full, extra := [0] }
def fullReports : Reply := { result := .full, extra := [1] }

/-- R106: the message is accepted. -/
def acceptMessage (m : Message) (s : State) : State :=
  takeReservation (s.setOutbound (s.outbound ++ [m]))

/-- R105: the checks in order. -/
def ownSend (payload : List Byte) (s : State) : State × Reply :=
  match messageOf payload with
  | none => refuse .badArgument s
  | some m =>
    if !s.stationActive m.destination then refuse .notPresent s
    else
      match s.message m.tag with
      | some h => (s, { result := .tagInUse, extra := [byteOf h.destination, messageStateCode h.state] })
      | none =>
        if Config.messageCapacity ≤ s.outbound.length then (s, fullQueue)
        else if !s.canReserve then (s, fullReports)
        else accept (acceptMessage m s)

/-- SEND (R105, R106). -/
def execSend (num : Word16) (payload : List Byte) (s : State) : Host.Outcome State Fault Refusal :=
  .next (takeRequest .send num payload (ownSend payload) s)

/-- R114. -/
def ownCancel (payload : List Byte) (s : State) : State × Reply :=
  match s.message (payload.getD 0 0) with
  | none => refuse .notFound s
  | some m =>
    match m.state with
    | .queued => accept (settleMessage m .cancelled [] s)
    | .inFlight => refuse .tooLate s

/-- CANCEL (R114). -/
def execCancel (num : Word16) (payload : List Byte) (s : State) : Host.Outcome State Fault Refusal :=
  .next (takeRequest .cancel num payload (ownCancel payload) s)

/-- R115: the held messages in offering order. -/
def offeringOrder (ms : List Message) : List Message :=
  ms.filter (·.state == .inFlight) ++ ms.filter (fun m => m.state == .queued && m.cls == .urgent) ++
    ms.filter fun m => m.state == .queued && m.cls == .normal

/-- R194: one item of LIST_MESSAGES. -/
def messageItem (m : Message) : List Byte :=
  [m.tag, byteOf m.destination, messageClassCode m.cls, messageStateCode m.state, byteOf m.made, flagByte m.onLine]

/-- LIST_MESSAGES (R115). -/
def execListMessages (num : Word16) (payload : List Byte) (s : State) : Host.Outcome State Fault Refusal :=
  .next (takeRequest .listMessages num payload
    (fun t => (t, .okWith (byteOf t.outbound.length :: (offeringOrder t.outbound).flatMap messageItem))) s)

end Sys2Proof.Machine
end

