-- ==== Sys2Proof/Machine/ReportRequests.lean ====
section
/-! DEFINITION. Chapter 7: the requests on the report queue and the condition set (R131-R133, R140, R141), and the taking
of a report by the transmit side (R128). -/

namespace Sys2Proof.Machine

/-- R131: the SENT entries up to and including the one numbered n, and those after it. -/
def splitAfter (n : Word16) : List SentReport → Option (List SentReport × List SentReport)
  | [] => none
  | e :: es =>
    if e.seq = n then some ([e], es) else (splitAfter n es).map fun r => (e :: r.1, r.2)

/-- R131: the acknowledged entries leave, and a waiting OVERFLOW takes a freed place (R127). -/
def ownAckReports (payload : List Byte) (s : State) : State × Reply :=
  match splitAfter (BitVec.ofNat 16 (field16 payload 0)) s.reports.sent with
  | none => refuse .badArgument s
  | some (gone, kept) =>
    (overflowIfDue (s.setReports { s.reports with sent := kept }), .okWith [byteOf gone.length])

/-- ACK_REPORTS (R131). -/
def execAckReports (num : Word16) (payload : List Byte) (s : State) : Host.Outcome State Fault Refusal :=
  .next (takeRequest .ackReports num payload (ownAckReports payload) s)

/-- R132. -/
def ownResendReports (s : State) : State × Reply :=
  (s.setReports { s.reports with sent := s.reports.sent.map fun e => { e with resendDue := true } },
    .okWith [byteOf s.reports.sent.length])

/-- RESEND_REPORTS (R132). -/
def execResendReports (num : Word16) (payload : List Byte) (s : State) : Host.Outcome State Fault Refusal :=
  .next (takeRequest .resendReports num payload ownResendReports s)

/-- R133: the kind may be set to the level. -/
def levelAllowed (k : ReportKind) (l : Nat) : Bool :=
  decide (l ≤ 3) && k != .start && k != .messageOutcome && k != .overflow && !(k == .note && l == 0)

/-- R133. -/
def ownSetLevel (payload : List Byte) (s : State) : State × Reply :=
  match reportKindOf (payload.getD 0 0) with
  | none => refuse .badArgument s
  | some k =>
    if levelAllowed k (field8 payload 1) then
      accept (s.setReports
        { s.reports with levels := s.reports.levels.setIfInBounds (levelIndex k) (field8 payload 1) })
    else refuse .badArgument s

/-- SET_LEVEL (R133). -/
def execSetLevel (num : Word16) (payload : List Byte) (s : State) : Host.Outcome State Fault Refusal :=
  .next (takeRequest .setLevel num payload (ownSetLevel payload) s)

/-- R140, R194. -/
def conditionBytes (s : State) : List Byte :=
  (conditionNames.flatMap fun n => [flagByte (s.conds.get n).active, flagByte (s.conds.get n).latched]) ++
    [flagByte s.heldPresent]

/-- READ_CONDITIONS (R140). -/
def execReadConditions (num : Word16) (payload : List Byte) (s : State) : Host.Outcome State Fault Refusal :=
  .next (takeRequest .readConditions num payload (fun t => (t, .okWith (conditionBytes t))) s)

/-- R141: the conditions a set names; none when it is malformed. -/
def conditionSetOf (payload : List Byte) : Option (List ConditionName) :=
  match payload.mapM conditionOf with
  | some ns => if ns.Nodup then some ns else none
  | none => none

/-- R141. -/
def ownClearConditions (payload : List Byte) (s : State) : State × Reply :=
  match conditionSetOf payload with
  | none => refuse .badArgument s
  | some ns =>
    let t := overAll ns clearLatch s
    (t, .okWith (conditionNames.map fun n => flagByte (t.conds.get n).latched))

/-- CLEAR_CONDITIONS (R141). -/
def execClearConditions (num : Word16) (payload : List Byte) (s : State) : Host.Outcome State Fault Refusal :=
  .next (takeRequest .clearConditions num payload (ownClearConditions payload) s)

/-- REPORT_TAKEN (R128): the free transmit side, with no response waiting, takes the report queue's offer. -/
def execReportTaken (s : State) : Host.Outcome State Fault Refusal :=
  .next (unlessInReset (fun s =>
    if s.link.sending.isNone && s.link.waiting.isNone then takeOffer s else s) s)

end Sys2Proof.Machine
end

