-- ==== Sys2Proof/Machine/RosterRequests.lean ====
section
/-! DEFINITION. Chapter 3: the requests on the station roster (R60-R65). -/

namespace Sys2Proof.Machine

/-- R60: a request of chapter 3 that names an address outside 1..62 is refused. -/
def forAddress (payload : List Byte) (act : Nat → State → State × Reply) (s : State) : State × Reply :=
  if stationAddress (field8 payload 0) then act (field8 payload 0) s else refuse .badArgument s

/-- R60: ADMIT at an address. A HELD entry always has a seen identity (log 25). -/
def admitEntry (a : Nat) (s : State) : State × Reply :=
  match (s.entry a).state, (s.entry a).seen with
  | .held, some i => accept (becomeActive a i false true (s.setEntry a { s.entry a with expected := some i }))
  | _, _ => refuse .wrongState s

/-- ADMIT (R60). -/
def execAdmitStation (num : Word16) (payload : List Byte) (s : State) : Host.Outcome State Fault Refusal :=
  .next (takeRequest .admitStation num payload (forAddress payload admitEntry) s)

/-- R61: the entry becomes BARRED; an ACTIVE one is lost with cause BARRED. -/
def barEntry (a : Nat) (s : State) : State :=
  if s.stationActive a then loseStation a .barred .barred s
  else s.setEntry a { s.entry a with state := .barred }

/-- BAR (R61). -/
def execBar (num : Word16) (payload : List Byte) (s : State) : Host.Outcome State Fault Refusal :=
  .next (takeRequest .bar num payload (forAddress payload fun a t => accept (barEntry a t)) s)

/-- R62: a BARRED entry returns to VACANT; the expected identity is kept. -/
def RosterEntry.unbarred (e : RosterEntry) : RosterEntry := { RosterEntry.vacant with expected := e.expected }

/-- R62: UNBAR at an address. -/
def unbarEntry (a : Nat) (s : State) : State × Reply :=
  if (s.entry a).state = .barred then accept (s.setEntry a (s.entry a).unbarred) else refuse .wrongState s

/-- UNBAR (R62). -/
def execUnbar (num : Word16) (payload : List Byte) (s : State) : Host.Outcome State Fault Refusal :=
  .next (takeRequest .unbar num payload (forAddress payload unbarEntry) s)

/-- R63: replace the expected identity. -/
def setExpected (a : Nat) (i : Option Identity) (s : State) : State :=
  s.setEntry a { s.entry a with expected := i }

/-- PROVISION (R63). -/
def execProvision (num : Word16) (payload : List Byte) (s : State) : Host.Outcome State Fault Refusal :=
  .next (takeRequest .provision num payload
    (forAddress payload fun a t => accept (setExpected a (some (identityOf (payload.drop 1))) t)) s)

/-- FORGET (R63). -/
def execForget (num : Word16) (payload : List Byte) (s : State) : Host.Outcome State Fault Refusal :=
  .next (takeRequest .forget num payload (forAddress payload fun a t => accept (setExpected a none t)) s)

/-- R64, R194: the 27 bytes of an entry. -/
def entryBytes (e : RosterEntry) : List Byte :=
  [rosterStateCode e.state] ++ optIdentityBytes e.expected ++ optIdentityBytes e.seen ++
    [byteOf e.miss, byteOf e.clash, flagByte e.inverted] ++ optCycleBytes e.lastHeard

/-- READ_DEVICE (R64). -/
def execReadDevice (num : Word16) (payload : List Byte) (s : State) : Host.Outcome State Fault Refusal :=
  .next (takeRequest .readDevice num payload (forAddress payload fun a t => (t, .okWith (entryBytes (t.entry a)))) s)

/-- R65: the addresses of the entries in a state, ascending. -/
def addressesIn (x : RosterState) (s : State) : List Nat :=
  stationAddresses.filter fun a => (s.entry a).state == x

/-- R65, R194. -/
def ownListDevices (payload : List Byte) (s : State) : State × Reply :=
  match rosterStateOf (payload.getD 0 0) with
  | some x =>
    (s, .okWith ([byteOf (addressesIn x s).length, byteOf s.roster.probePointer] ++ (addressesIn x s).map byteOf))
  | none => refuse .badArgument s

/-- LIST_DEVICES (R65). -/
def execListDevices (num : Word16) (payload : List Byte) (s : State) : Host.Outcome State Fault Refusal :=
  .next (takeRequest .listDevices num payload (ownListDevices payload) s)

end Sys2Proof.Machine
end

