-- ==== Sys2Proof/Machine/SegmentEvents.lean ====
section
/-! DEFINITION. Chapters 2 and 9: the events of the transaction in flight and of the segment line (R28-R31, R34, R40,
R160-R169). -/

namespace Sys2Proof.Machine

/-- Change the phase of the record in flight. -/
def setPhase (r : Record) (p : Phase) (s : State) : State :=
  s.setTxn { s.txn with record := some { r with phase := p } }

/-! ## The transmitter (R165, R28) -/

/-- R19: a MARK enters SENDING; it is late when the delay exceeds the slot tolerance. -/
def measureMark (o : Origin) (s : State) : State :=
  match o with
  | .mark cycle nominal =>
    let delay := ticksBetween nominal s.now
    if s.sched.params.tolerance < delay then raiseReport .cycleLate (cycleLateBody cycle delay true) (latchCycleLate s)
    else s
  | _ => s

/-- R165: the transmitter leaves IDLE with the record's body, and the record enters SENDING. -/
def leaveIdle (r : Record) (s : State) : State :=
  measureMark r.origin
    ((setPhase r (.sending s.now) s).setSeg { s.seg with transmitter := .sending r.body s.now, echo := none })

/-- TRANSMIT_START (R165): a record in WAITING_LINE on a QUIET line, at the instant the turnaround is met. -/
def execTransmitStart (s : State) : Host.Outcome State Fault Refusal :=
  .next (unlessInReset (fun s =>
    match s.txn.record with
    | some r =>
      match r.phase with
      | .waitingLine _ => if s.seg.activity = .quiet then leaveIdle r (s.reach s.turnaroundAt) else s
      | _ => s
    | none => s) s)

/-- WAITING_LINE_TIMEOUT (R28). -/
def execWaitingLineTimeout (s : State) : Host.Outcome State Fault Refusal :=
  .next (unlessInReset (fun s =>
    match s.txn.record with
    | some r =>
      match r.phase with
      | .waitingLine since => endRecord .abandoned (s.reach (since + s.bits Config.waitingLimitBits))
      | _ => s
    | none => s) s)

/-! ## The echo (R29, R166, R167) -/

/-- The receiver has completed the start delimiter of an echo and not yet closed it. -/
def Receiver.readingEcho : Receiver → Bool
  | .body f _ _ _ _ => f.echo
  | _ => false

/-- R166: the echo verdict on the body sent. -/
def echoVerdictOf (body : List Byte) (seg : SegmentLine) : EchoVerdict :=
  match seg.echo with
  | some (.good b _) => if b = body then .sound else .unsound
  | some _ => .unsound
  | none => if seg.receiver.readingEcho then .unsound else .noEcho

/-- R167: NO_ECHO follows the echo verdict. -/
def followEcho (v : EchoVerdict) (s : State) : State :=
  match v with
  | .noEcho => activate .noEcho s
  | .sound => deactivate .noEcho s
  | .unsound => s

/-- R29, R34: the record leaves SENDING at the end of its end delimiter. -/
def leaveSending (r : Record) (v : EchoVerdict) (ended : Nat) (s : State) : State :=
  if r.abandonAtEnd then endRecord .abandoned s
  else
    match v with
    | .sound =>
      if r.kind = .mark then endRecord .sent s
      else setPhase r (.awaiting (ended + s.bits s.sched.params.window)) s
    | .unsound => endRecord .collision s
    | .noEcho => endRecord .echoLost s

/-- R165: the transmitter returns to IDLE at the end of its end delimiter, which is recorded as the last end delimiter seen.
R160 leaves open whether it counts as seen when its echo was not heard or did not close. DESIGN CHOICE, unsafe: the model
counts it always (log 34). -/
def returnToIdle (v : EchoVerdict) (ended : Nat) (s : State) : State :=
  s.setSeg { s.seg with
    transmitter := .idle, echo := none, lastEcho := some v, lastEndDelimiter := max s.seg.lastEndDelimiter ended }

/-- ECHO_VERDICT (R166). -/
def execEchoVerdict (s : State) : Host.Outcome State Fault Refusal :=
  .next (unlessInReset (fun s =>
    match s.seg.transmitter, s.txn.record with
    | .sending body since, some r =>
      let ended := since + s.bits (frameBits body.length)
      let v := echoVerdictOf body s.seg
      leaveSending r v ended (followEcho v (returnToIdle v ended (s.reach ended)))
    | _, _ => s) s)

/-! ## Awaiting an answer (R30) -/

/-- ANSWER_WINDOW_EXPIRED (R30). -/
def execAnswerWindowExpired (s : State) : Host.Outcome State Fault Refusal :=
  .next (unlessInReset (fun s =>
    match s.txn.record with
    | some r =>
      match r.phase with
      | .awaiting deadline => endRecord .miss (s.reach deadline)
      | _ => s
    | none => s) s)

/-- R160, R168: the line sees a transition now. -/
def seeTransition (s : State) : State :=
  s.setSeg { s.seg with
    activity := .active, lastTransition := s.now
    activeSince := if s.seg.activity = .quiet then s.now else s.seg.activeSince }

/-- R161: a frame begins, marked as echo while the transmitter is away from IDLE. -/
def beginFrame (s : State) : State :=
  s.setSeg { s.seg with
    receiver := .locking { start := s.now, echo := s.seg.transmitter.busy, count := 0, lastHalf := false
                           lastTransition := s.now } 0 none }

/-- R30: the first transition of a frame, at or before the deadline, moves a record in AWAITING to RECEIVING. A later one
leaves the record to ANSWER_WINDOW_EXPIRED (log 16). -/
def hearTransition (s : State) : State :=
  match s.txn.record with
  | some r =>
    match r.phase with
    | .awaiting deadline => if s.now ≤ deadline then setPhase r .receiving s else s
    | _ => s
  | none => s

/-- FIRST_TRANSITION (R161). While the receiver already reads a frame or drains one, the transition only keeps the line
ACTIVE (R160). -/
def execFirstTransition (s : State) : Host.Outcome State Fault Refusal :=
  .next (unlessInReset (fun s =>
    if s.seg.receiver = .quiet then hearTransition (beginFrame (seeTransition s)) else seeTransition s) s)

/-! ## Frames (R162-R164) -/

/-- SEGMENT_FRAME_RECEIVED (R164): the receiver reads symbols up to the one that brings the verdict. -/
def execSegmentFrameReceived (symbols : List Symbol) (s : State) : Host.Outcome State Fault Refusal :=
  .next (unlessInReset (fun s =>
    match readSymbols (s.bits 1) s.seg.receiver symbols with
    | .verdict f v true => closeFrame f v (s.reach (f.endAt (s.bits 1)))
    | _ => s) s)

/-- R162: the receiver stands at the beginning of BODY of a frame. -/
def takeDelimiter (r : Receiver) (f : FrameInProgress) (s : State) : State :=
  let s := s.reach (f.endAt (s.bits 1))
  s.setSeg { s.seg with receiver := r, lastTransition := max s.seg.lastTransition f.lastTransition }

/-- START_DELIMITER_COMPLETED (R162): the receiver reads symbols up to the last of the start delimiter. -/
def execStartDelimiterCompleted (symbols : List Symbol) (s : State) : Host.Outcome State Fault Refusal :=
  .next (unlessInReset (fun s =>
    match readSymbols (s.bits 1) s.seg.receiver symbols with
    | .reading r =>
      match r.frame with
      | some f => if s.seg.receiver.beforeDelimiter && r.bodyBegun then takeDelimiter r f s else s
      | none => s
    | .verdict _ _ _ => s) s)

/-- START_DELIMITER_TIMEOUT (R162). -/
def execStartDelimiterTimeout (s : State) : Host.Outcome State Fault Refusal :=
  .next (unlessInReset (fun s =>
    match s.seg.receiver.frame with
    | some f =>
      if s.seg.receiver.beforeDelimiter then
        closeFrame f .garbled (s.reach (f.start + s.bits Config.delimiterLimitBits))
      else s
    | none => s) s)

/-! ## Line activity (R160) -/

/-- R161-R163: the verdict on a frame the receiver is reading when the line falls quiet. -/
def quietVerdict (r : Receiver) : Verdict := if r.beforeDelimiter then .garbled else .broken

/-- R160: the line becomes QUIET; its last transition was 4 bit times ago (log 9). -/
def fallQuiet (s : State) : State :=
  s.setSeg { s.seg with
    activity := .quiet, receiver := .quiet, lastTransition := s.now - s.bits Config.quietBits }

/-- LINE_QUIET (R160). -/
def execLineQuiet (s : State) : Host.Outcome State Fault Refusal :=
  .next (unlessInReset (fun s =>
    if s.seg.activity = .active then
      let t := fallQuiet (s.reach (s.seg.lastTransition + s.bits Config.quietBits))
      match s.seg.receiver.frame with
      | some f => giveVerdict f (quietVerdict s.seg.receiver) t
      | none => t
    else s) s)

/-- TURNAROUND_MET (R160): the turnaround's instant comes on a QUIET line. -/
def execTurnaroundMet (s : State) : Host.Outcome State Fault Refusal :=
  .next (unlessInReset (fun s => if s.seg.activity = .quiet then s.reach s.turnaroundAt else s) s)

/-! ## Foreign traffic (R40) -/

/-- FOREIGN_TIME_EXPIRY (R40): 100 ms without a sighting, in CONFIG or STOPPING. -/
def execForeignTimeExpiry (s : State) : Host.Outcome State Fault Refusal :=
  .next (unlessInReset (fun s =>
    match s.txn.lastForeign with
    | some t =>
      if s.sched.mode ≠ .run ∧ s.conds.foreign.active then deactivate .foreign (s.reach (foreignExpiryAt t)) else s
    | none => s) s)

/-! ## The babble guard (R34, R168, R169) -/

/-- R34: a record in flight when a babble fault is declared. -/
def abandonRecord (s : State) : State :=
  match s.txn.record with
  | none => s
  | some r =>
    match r.phase with
    | .sending _ => s.setTxn { s.txn with record := some { r with abandonAtEnd := true } }
    | _ => endRecord .abandoned s

/-- R168: a babble fault is declared. -/
def declareBabble (s : State) : State :=
  abandonRecord (raiseReport .lineFault [0] (activate .babble (s.setSeg { s.seg with babbleFault := true })))

/-- BABBLE_DETECTED (R168). -/
def execBabbleDetected (s : State) : Host.Outcome State Fault Refusal :=
  .next (unlessInReset (fun s =>
    if s.seg.activity = .active ∧ ¬ s.seg.babbleFault then
      declareBabble (s.reach (s.seg.activeSince + s.bits Config.babbleBits))
    else s) s)

/-- R169: a babble fault ends. -/
def endBabble (s : State) : State :=
  raiseReport .lineRestored [] (deactivate .babble (s.setSeg { s.seg with babbleFault := false }))

/-- BABBLE_END (R169). -/
def execBabbleEnd (s : State) : Host.Outcome State Fault Refusal :=
  .next (unlessInReset (fun s =>
    if s.seg.babbleFault ∧ s.seg.activity = .quiet then
      endBabble (s.reach (s.seg.lastTransition + s.bits Config.babbleEndBits))
    else s) s)

end Sys2Proof.Machine
end

