-- ==== Sys2Proof/Machine/Dispatch.lean ====
section
/-! DEFINITION. Every command's meaning: one arm per constructor of Instr. -/

namespace Sys2Proof.Machine

def exec (i : Instr) (s : State) : Host.Outcome State Fault Refusal :=
  match i with
  | .configure num payload => Sys2Proof.Machine.execConfigure num payload s
  | .readConfig num payload => Sys2Proof.Machine.execReadConfig num payload s
  | .start num payload => Sys2Proof.Machine.execStart num payload s
  | .stop num payload => Sys2Proof.Machine.execStop num payload s
  | .addSlot num payload => Sys2Proof.Machine.execAddSlot num payload s
  | .deleteSlot num payload => Sys2Proof.Machine.execDeleteSlot num payload s
  | .clearShadow num payload => Sys2Proof.Machine.execClearShadow num payload s
  | .copyActive num payload => Sys2Proof.Machine.execCopyActive num payload s
  | .readSlots num payload => Sys2Proof.Machine.execReadSlots num payload s
  | .swap num payload => Sys2Proof.Machine.execSwap num payload s
  | .cancelSwap num payload => Sys2Proof.Machine.execCancelSwap num payload s
  | .admitStation num payload => Sys2Proof.Machine.execAdmitStation num payload s
  | .bar num payload => Sys2Proof.Machine.execBar num payload s
  | .unbar num payload => Sys2Proof.Machine.execUnbar num payload s
  | .provision num payload => Sys2Proof.Machine.execProvision num payload s
  | .forget num payload => Sys2Proof.Machine.execForget num payload s
  | .readDevice num payload => Sys2Proof.Machine.execReadDevice num payload s
  | .listDevices num payload => Sys2Proof.Machine.execListDevices num payload s
  | .declare num payload => Sys2Proof.Machine.execDeclare num payload s
  | .withdraw num payload => Sys2Proof.Machine.execWithdraw num payload s
  | .readPoint num payload => Sys2Proof.Machine.execReadPoint num payload s
  | .watch num payload => Sys2Proof.Machine.execWatch num payload s
  | .send num payload => Sys2Proof.Machine.execSend num payload s
  | .cancel num payload => Sys2Proof.Machine.execCancel num payload s
  | .listMessages num payload => Sys2Proof.Machine.execListMessages num payload s
  | .ackReports num payload => Sys2Proof.Machine.execAckReports num payload s
  | .resendReports num payload => Sys2Proof.Machine.execResendReports num payload s
  | .setLevel num payload => Sys2Proof.Machine.execSetLevel num payload s
  | .readConditions num payload => Sys2Proof.Machine.execReadConditions num payload s
  | .clearConditions num payload => Sys2Proof.Machine.execClearConditions num payload s
  | .setLine num payload => Sys2Proof.Machine.execSetLine num payload s
  | .writeLine num payload => Sys2Proof.Machine.execWriteLine num payload s
  | .readLines num payload => Sys2Proof.Machine.execReadLines num payload s
  | .identify num payload => Sys2Proof.Machine.execIdentify num payload s
  | .status num payload => Sys2Proof.Machine.execStatus num payload s
  | .setLinkRate num payload => Sys2Proof.Machine.execSetLinkRate num payload s
  | .restart num payload => Sys2Proof.Machine.execRestart num payload s
  | .unknownRequest code num payload => Sys2Proof.Machine.execUnknownRequest code num payload s
  | .linkFrameReceived => Sys2Proof.Machine.execLinkFrameReceived s
  | .linkFormatError cause => Sys2Proof.Machine.execLinkFormatError cause s
  | .interByteTimeout => Sys2Proof.Machine.execInterByteTimeout s
  | .linkFrameSent => Sys2Proof.Machine.execLinkFrameSent s
  | .reportTaken => Sys2Proof.Machine.execReportTaken s
  | .linkRateChange => Sys2Proof.Machine.execLinkRateChange s
  | .softReset => Sys2Proof.Machine.execSoftReset s
  | .resetPinAsserted => Sys2Proof.Machine.execResetPinAsserted s
  | .hardReset cause => Sys2Proof.Machine.execHardReset cause s
  | .hostSilentTimeout => Sys2Proof.Machine.execHostSilentTimeout s
  | .boundary => Sys2Proof.Machine.execBoundary s
  | .markStart => Sys2Proof.Machine.execMarkStart s
  | .slotDue offset => Sys2Proof.Machine.execSlotDue offset s
  | .slotStart => Sys2Proof.Machine.execSlotStart s
  | .slotLate offset => Sys2Proof.Machine.execSlotLate offset s
  | .stoppingEnd => Sys2Proof.Machine.execStoppingEnd s
  | .transmitStart => Sys2Proof.Machine.execTransmitStart s
  | .waitingLineTimeout => Sys2Proof.Machine.execWaitingLineTimeout s
  | .echoVerdict => Sys2Proof.Machine.execEchoVerdict s
  | .answerWindowExpired => Sys2Proof.Machine.execAnswerWindowExpired s
  | .firstTransition => Sys2Proof.Machine.execFirstTransition s
  | .segmentFrameReceived symbols => Sys2Proof.Machine.execSegmentFrameReceived symbols s
  | .startDelimiterTimeout => Sys2Proof.Machine.execStartDelimiterTimeout s
  | .lineQuiet => Sys2Proof.Machine.execLineQuiet s
  | .turnaroundMet => Sys2Proof.Machine.execTurnaroundMet s
  | .foreignTimeExpiry => Sys2Proof.Machine.execForeignTimeExpiry s
  | .gapConsideration => Sys2Proof.Machine.execGapConsideration s
  | .babbleDetected => Sys2Proof.Machine.execBabbleDetected s
  | .babbleEnd => Sys2Proof.Machine.execBabbleEnd s
  | .localLinePinChange line level => Sys2Proof.Machine.execLocalLinePinChange line level s
  | .inputFilterExpired line => Sys2Proof.Machine.execInputFilterExpired line s
  | .startDelimiterCompleted symbols => Sys2Proof.Machine.execStartDelimiterCompleted symbols s
  | .linkByteReceived byte => Sys2Proof.Machine.execLinkByteReceived byte s

end Sys2Proof.Machine
end

