-- ==== Sys2Proof/Safety.lean ====
section
/-! DEFINITION. The terms the statements use: when a request is taken and what its taking and its response do to the link,
what a frame of a statement keeps, and the laws of a state that no command may break. -/

namespace Sys2Proof

/-- The command that takes a request of section 10.7. -/
def requestCommand : RequestName → Word16 → List Byte → Instr
  | .configure => .configure
  | .readConfig => .readConfig
  | .start => .start
  | .stop => .stop
  | .addSlot => .addSlot
  | .deleteSlot => .deleteSlot
  | .clearShadow => .clearShadow
  | .copyActive => .copyActive
  | .readSlots => .readSlots
  | .swap => .swap
  | .cancelSwap => .cancelSwap
  | .admitStation => .admitStation
  | .bar => .bar
  | .unbar => .unbar
  | .provision => .provision
  | .forget => .forget
  | .readDevice => .readDevice
  | .listDevices => .listDevices
  | .declare => .declare
  | .withdraw => .withdraw
  | .readPoint => .readPoint
  | .watch => .watch
  | .send => .send
  | .cancel => .cancel
  | .listMessages => .listMessages
  | .ackReports => .ackReports
  | .resendReports => .resendReports
  | .setLevel => .setLevel
  | .readConditions => .readConditions
  | .clearConditions => .clearConditions
  | .setLine => .setLine
  | .writeLine => .writeLine
  | .readLines => .readLines
  | .identify => .identify
  | .status => .status
  | .setLinkRate => .setLinkRate
  | .restart => .restart

namespace Machine

/-! ## Taking a request (R179, R180, R182-R184) -/

/-- The frame of a request of section 10.7. -/
def requestFrame (r : RequestName) (num : Word16) (payload : List Byte) : RequestFrame :=
  { code := requestCode r, num := num, payload := payload }

/-- R179: the request is taken now: the part is out of reset, no response is in hand, and the frame heads the buffer. -/
structure Taken (f : RequestFrame) (s : State) : Prop where
  running : s.inReset = false
  free : s.link.responseInHand = false
  first : s.link.buffer.head? = some f

/-- R180: the request does not repeat the last request taken. -/
def NotRepeat (f : RequestFrame) (s : State) : Prop :=
  ∀ r, s.link.lastRequest = some r → r.repeats f.code f.num = false

/-- The request is taken now and is not a repeat. -/
structure TakenFresh (f : RequestFrame) (s : State) : Prop extends Taken f s where
  fresh : NotRepeat f s

/-- The link once a request has been taken: its place in the buffer is free (R179). -/
def State.taken (s : State) : State := { s with link := { s.link with buffer := s.link.buffer.tail } }

/-- A frame has come to an empty buffer and been judged valid at this instant, which restarts the silence timer and ends
HOST_SILENT (R176, R184). -/
def State.arrived (s : State) (f : RequestFrame) : State :=
  { s with
    conds := { s.conds with hostSilent := { s.conds.hostSilent with active := false } }
    link := { s.link with buffer := [f], silenceStart := s.now } }

/-- The link once a response has been handed to the transmit side: it is sent when the side is free and waits otherwise
(R183). -/
def State.handed (s : State) (f : LinkFrame) : State :=
  { s with link := { s.link with
      sending := some (s.link.sending.getD f)
      sendingSince := if s.link.sending.isSome then s.link.sendingSince else s.now
      waiting := if s.link.sending.isSome then some f else s.link.waiting } }

/-- R172, R183: the clock once the last stop bit of the frame being sent has left TXD: 10 bit periods for each of its bytes,
the 8 of the envelope among them. -/
def State.leftTxd (s : State) (f : LinkFrame) : Nat :=
  max s.now (s.link.sendingSince +
    ((f.payload.length + 8) * 10 * 10240000 + baud s.link.rate - 1) / baud s.link.rate)

/-- The link once a request of a CODE and NUM has been answered: the last-request record is replaced and the response handed
over (R180, R182). -/
def State.answeredCode (s : State) (code : Byte) (num : Word16) (x : Reply) : State :=
  State.handed
    { s with link := { s.link with
        lastRequest := some
          { code := code, num := num
            response := { cls := 2, code := code, num := num, payload := resultCode x.result :: x.extra } } } }
    { cls := 2, code := code, num := num, payload := resultCode x.result :: x.extra }

/-- The link once a request of section 10.7 has been answered. -/
def State.answered (s : State) (r : RequestName) (num : Word16) (x : Reply) : State :=
  s.answeredCode (requestCode r) num x

/-- A request is taken, answered with a reply, and changes nothing else. -/
def State.onlyAnswered (s : State) (r : RequestName) (num : Word16) (x : Reply) : State := s.taken.answered r num x

/-- OK with no further bytes. -/
def okReply : Reply := { result := .ok, extra := [] }

/-! ## Numbers of parameters and of bytes -/

/-- R2: the value of a parameter by its number. -/
def Params.value (p : Params) : Nat → Nat
  | 1 => p.period
  | 2 => p.tolerance
  | 3 => p.window
  | 4 => rateNumber p.rate
  | 5 => p.missLimit
  | 6 => p.probes
  | 7 => admissionNumber p.admission
  | 8 => p.holdTime
  | _ => 0

/-- The number in the n bytes of a payload from position i on, high byte first. -/
def bytesAt (bs : List Byte) (i n : Nat) : Nat := ofBytes ((bs.drop i).take n)

/-- R2: the ranges of the eight parameters; no other number names one. -/
def ParamAllowed (n v : Nat) : Prop :=
  (n = 1 ∧ 50 ≤ v ∧ v ≤ 65535) ∨ (n = 2 ∧ v ≤ 255) ∨ (n = 3 ∧ 16 ≤ v ∧ v ≤ 255) ∨ (n = 4 ∧ (v = 40 ∨ v = 160)) ∨
    (n = 5 ∧ 1 ≤ v ∧ v ≤ 15) ∨ (n = 6 ∧ v ≤ 4) ∨ (n = 7 ∧ (v = 0 ∨ v = 1)) ∨
    (n = 8 ∧ (v = 0 ∨ (10 ≤ v ∧ v ≤ 60000)))

/-- R193: the payload lengths of a request. -/
def LengthOf (r : RequestName) (n : Nat) : Prop :=
  match r with
  | .configure => n ≤ 192 ∧ n % 3 = 0
  | .readConfig | .start | .stop | .clearShadow | .copyActive | .swap | .cancelSwap | .listMessages | .resendReports
  | .readConditions | .readLines | .identify | .status | .restart => n = 0
  | .admitStation | .bar | .unbar | .forget | .readDevice | .listDevices | .cancel => n = 1
  | .deleteSlot | .withdraw | .readPoint | .ackReports | .setLevel | .writeLine => n = 2
  | .readSlots | .watch => n = 3
  | .declare | .setLinkRate => n = 4
  | .addSlot => n = 6
  | .provision => n = 9
  | .send => 4 ≤ n ∧ n ≤ 52
  | .clearConditions => n ≤ 6
  | .setLine => 2 ≤ n ∧ n ≤ 9

/-! ## What happenings leave alone -/

/-- Of the local lines, only mirrored ones may have changed (R86, R153). -/
def MirrorsOnly (s t : State) : Prop :=
  ∀ i : Fin 8, s.lines.records[i].mirror = none →
    t.lines.records[i] = s.lines.records[i] ∧ t.lines.pins[i] = s.lines.pins[i]

/-- No two point records share a key (R70). -/
def State.keysDistinct (s : State) : Prop := (s.points.map (·.key)).Nodup

/-- No two held messages share a tag (R103). -/
def State.tagsDistinct (s : State) : Prop := (s.outbound.map (·.tag)).Nodup

/-! ## Reports raised, and what they say of points (R83-R85, R123-R127) -/

/-- R125: reports are raised one after the other. -/
def State.raising (rs : List (ReportKind × List Byte)) (s : State) : State :=
  rs.foldl (fun t r => raiseReport r.1 r.2 t) s

/-- What raising one report makes of the queue and REPORT_LOSS: nothing at level 0 (R125); an UNSENT POINT_CHANGED of the
same point is rewritten in place (R85); with room the report joins the tail (R125); in a full queue it displaces the newest
of the entries of the lowest level below its own, or is itself discarded, and one loss is counted (R126). -/
def ReportRaised (k : ReportKind) (body : List Byte) (s t : State) : Prop :=
  let level := s.reports.levelOf k
  let entry : Report := { kind := k, level := level, body := body, reserved := false }
  let same := fun e : Report => k = .pointChanged ∧ e.kind = .pointChanged ∧ e.body.take 2 = body.take 2
  let losses := min 65535 (s.reports.lossTally + 1)
  (level = 0 → t.reports = s.reports ∧ t.conds.reportLoss = s.conds.reportLoss) ∧
  (level ≠ 0 → (∃ e ∈ s.reports.unsent, same e) →
    t.conds.reportLoss = s.conds.reportLoss ∧
    t.reports = { s.reports with
      unsent := s.reports.unsent.map fun e => if same e then { e with body := body } else e }) ∧
  (level ≠ 0 → (∀ e ∈ s.reports.unsent, ¬ same e) → s.reports.places < 32 →
    t.conds.reportLoss = s.conds.reportLoss ∧
    t.reports = { s.reports with unsent := s.reports.unsent ++ [entry] }) ∧
  (level ≠ 0 → (∀ e ∈ s.reports.unsent, ¬ same e) → 32 ≤ s.reports.places →
    t.conds.reportLoss =
      { active := true, latched := s.conds.reportLoss.latched || !s.conds.reportLoss.active } ∧
    ((∀ e ∈ s.reports.unsent, e.reserved = true ∨ level ≤ e.level) →
      t.reports = { s.reports with lossTally := losses }) ∧
    ∀ pre e post, s.reports.unsent = pre ++ e :: post → e.reserved = false → e.level < level →
      (∀ d ∈ s.reports.unsent, d.reserved = false → e.level ≤ d.level) →
      (∀ d ∈ post, d.reserved = false → d.level ≠ e.level) →
      t.reports = { s.reports with unsent := pre ++ post ++ [entry], lossTally := losses })

/-- R83, R84: the POINT_CHANGED reports a happening at points asks for, in the points' order: the watch mode says of which
changes, and the body gives the point as the happening leaves it. -/
def changeReports (f : Point → Point) (ps : List Point) : List (ReportKind × List Byte) :=
  ps.filterMap fun p =>
    if ((f p).watch = .change ∧ ((f p).value ≠ p.value ∨ (f p).status ≠ p.status ∨ (f p).quality ≠ p.quality)) ∨
        ((f p).watch = .quality ∧ (f p).quality ≠ p.quality) then
      some (.pointChanged, [byteOf (f p).key.address, byteOf (f p).key.number, qualityCode (f p).quality, (f p).status] ++
        be16 (f p).updates.toNat ++ (f p).value)
    else none

/-- The queue is as raising reports in a state leaves it, and of the conditions only REPORT_LOSS has followed. -/
structure RaisedExactly (rs : List (ReportKind × List Byte)) (s t : State) : Prop where
  reports : t.reports = (s.raising rs).reports
  conds : t.conds = { s.conds with reportLoss := (s.raising rs).conds.reportLoss }

/-! ## Lines (R143, R145) -/

/-- R143: the line drives its pin at a level. -/
def LineRecord.drives (r : LineRecord) (v : Level) : Bool :=
  match r with
  | .off => false
  | .input _ => false
  | .outputHost l => l.current == v
  | .outputMirror l => l.current == v

/-- R143, R145: a line takes a record that drives a level, or none. The driven level stands at the pin, unless the line already
drove that level; a pin that is not driven keeps what it shows (log 7). No other line changes. -/
def State.lineTakes (i : Fin 8) (r : LineRecord) (level : Option Level) (s : State) : State :=
  { s with lines :=
      { records := s.lines.records.set i r
        pins :=
          match level with
          | none => s.lines.pins
          | some v => if s.lines.records[i].drives v then s.lines.pins else s.lines.pins.set i v } }

/-! ## Mirrored lines (R86, R153) -/

/-- R86, R153: a mirrored line whose point has changed quality or value shows the bound bit while the point is GOOD, which
is then its held level, and its safe level otherwise; any other mirrored line stays as it was. -/
def MirrorsFollow (s t : State) : Prop :=
  ∀ (i : Fin 8) (l : MirrorLine), s.lines.records[i] = .outputMirror l →
    (∀ p q, s.point l.binding = some p → t.point l.binding = some q → q.quality ≠ p.quality ∨ q.value ≠ p.value →
      let bit : Level := if (q.value.getD l.byteIndex 0).getLsbD l.bitIndex != l.invert then .high else .low
      let safeNow : Level := match l.safe with | .low => .low | .high => .high | .hold => l.held
      let current := if q.quality = .good then bit else safeNow
      t.lines.records[i] = .outputMirror
        { l with current := current, held := if q.quality = .good then bit else l.held } ∧
      t.lines.pins[i] = if current = l.current then s.lines.pins[i] else current) ∧
    ((∀ p q, s.point l.binding = some p → t.point l.binding = some q → q.quality = p.quality ∧ q.value = p.value) →
      t.lines.records[i] = s.lines.records[i] ∧ t.lines.pins[i] = s.lines.pins[i])

/-! ## Skips (R21) -/

/-- R21: the summary with one skip more. The first is the earliest, and at one instant the one of the lowest offset; those
that come of a CUE's outcome have a first of their own (log 11). -/
def SkipSummary.plus (m : SkipSummary) (x : Skip) : SkipSummary :=
  let first := fun old : Option Skip =>
    match old with
    | some y => if x.instant = y.instant ∧ x.offset < y.offset then x else y
    | none => x
  { count := m.count + 1, first := some (first m.first)
    firstCue := if x.reason ∈ [.collision, .echoLost, .abandoned] then some (first m.firstCue) else m.firstCue }

/-- R21: a slot is skipped now. -/
def State.skipping (offset : Nat) (reason : SkipReason) (s : State) : State :=
  { s with sched := { s.sched with
      summary := s.sched.summary.plus { offset := offset, reason := reason, instant := s.now }
      skipTotal := s.sched.skipTotal + 1 } }

/-! ## What the end of a record does (R35) -/

/-- R111, R124: messages end with an outcome, each report filling the message's reservation, in acceptance order. -/
def State.settling (ms : List Message) (outcome : Byte) (extra : List Byte) (s : State) : State :=
  { s with
    outbound := s.outbound.filter fun x => !(ms.map (·.tag)).contains x.tag
    reports := { s.reports with
      unsent := s.reports.unsent ++ ms.map (fun m =>
        ({ kind := .messageOutcome, level := s.reports.levelOf .messageOutcome
           body := [m.tag, byteOf m.destination, messageClassCode m.cls, outcome, byteOf m.made] ++ extra
           reserved := true } : Report))
      reservations := s.reports.reservations - ms.length } }

/-- R119, R127: a reservation is released; the free place serves a waiting OVERFLOW. -/
def State.releasing (s : State) : State :=
  let q := { s.reports with reservations := s.reports.reservations - 1 }
  if 0 < s.reports.lossTally ∧ q.places < 32 then
    { s with
      reports := { q with
        lossTally := 0
        unsent := q.unsent ++ [{ kind := .overflow, level := q.levelOf .overflow, body := be16 q.lossTally
                                 reserved := false }] }
      conds := { s.conds with reportLoss := { s.conds.reportLoss with active := false } } }
  else { s with reports := q }

/-- R107, R149: the record has ended, so its attempt or its CUE is no longer on the line. -/
def State.offLine (r : Record) (s : State) : State :=
  match r.origin with
  | .outbound t => { s with outbound := s.outbound.map fun m => if m.tag = t then { m with onLine := false } else m }
  | .trigger i =>
    match s.lines.records[i] with
    | .input l => { s with lines := { s.lines with records := s.lines.records.set i (.input { l with cueOnLine := false }) } }
    | _ => s
  | _ => s

/-- What the owner of a record makes of an outcome that brought no answer (R22, R109, R110, R112, R113, R119, R149): `fault`
is the skip reason of COLLISION, ECHO_LOST or ABANDONED, and none for MISS, GARBLED and WRONG. A slot is skipped; a message
takes its attempt back after a line fault, and ends DEVICE_GONE, ABORTED, NO_REPLY or not at all; a FETCH gives its
reservation back; a trigger is spent if its CUE was still the line's. -/
def State.ownerActs (r : Record) (fault : Option SkipReason) (s : State) : State :=
  match r.origin with
  | .mark _ _ => s
  | .probe => s
  | .slot o =>
    match fault with
    | some reason => s.skipping o reason
    | none => s
  | .trigger i =>
    match s.lines.records[i] with
    | .input l =>
      let l' := { l with pending := l.pending && !l.cueOnLine, cueOnLine := false }
      { s with lines := { s.lines with records := s.lines.records.set i (.input l') } }
    | _ => s
  | .fetch => s.releasing
  | .outbound t =>
    match s.outbound.find? (fun m => m.tag == t) with
    | none => s
    | some m =>
      let m' := { m with made := if fault.isSome then m.made - 1 else m.made, onLine := false }
      if m.gone then s.settling [m'] 2 []
      else if s.sched.mode = .stopping then s.settling [m'] 4 []
      else if fault = none ∧ m.made = m.limit then s.settling [m'] 1 []
      else { s with outbound := s.outbound.map fun x => if x.tag = t then m' else x }

/-- R57: a CUE, FETCH or SEND, which is any record but a MARK and a ROLL, counts one miss against its station while it is
ACTIVE when it ends MISS, GARBLED or WRONG. -/
def State.missed (r : Record) (s : State) : State :=
  if r.kind ≠ .mark ∧ r.kind ≠ .roll ∧ s.stationActive r.target then
    s.setEntry r.target { s.entry r.target with miss := (s.entry r.target).miss + 1 }
  else s

/-- R58: the miss does not reach the miss limit. -/
def State.keepsStation (r : Record) (s : State) : Prop :=
  r.kind ≠ .mark → r.kind ≠ .roll → s.stationActive r.target = true →
    (s.entry r.target).miss + 1 ≠ s.sched.params.missLimit

/-- R35: the record is discarded. -/
def State.discarded (s : State) : State := { s with txn := { s.txn with record := none } }

/-- R27, R107, R149: the record in flight is one that its origin hands over; the message or the line whose work is on the line
is held, and its destination or its bound point's address is the record's target. -/
def State.RecordLaw (s : State) : Prop :=
  ∀ r, s.txn.record = some r →
    let cue := r.kind = .cue ∧ ∃ n, r.expected = some (.pub r.target n) ∧ r.body = [0x20, byteOf r.target, byteOf n]
    match r.origin with
    | .mark cycle _ => r.kind = .mark ∧ r.target = 63 ∧ r.expected = none ∧
        ∃ period, r.body = [0x10, 0x3F] ++ be32 cycle.toNat ++ be16 period
    | .slot _ => cue
    | .trigger i => cue ∧
        ∀ l, s.lines.records[i] = .input l → l.cueOnLine = true → ∃ k, l.binding = some k ∧ k.address = r.target
    | .outbound t => r.kind = .send ∧ r.expected = some (.reply r.target t) ∧
        ∃ m ∈ s.outbound, m.tag = t ∧ m.state = .inFlight ∧ m.onLine = true ∧ m.destination = r.target ∧
          r.body = [0x80, byteOf r.target, t] ++ m.payload
    | .fetch => r.kind = .fetch ∧ r.expected = some (.note r.target) ∧ r.body = [0x60, byteOf r.target]
    | .probe => r.kind = .roll ∧ r.expected = some (.answer r.target) ∧ r.body = [0x40, byteOf r.target]

/-- R58, R59, R61: the ACTIVE station of an address takes the state LOST or BARRED with all the loss consequences: its
waiting slots are skipped ABSENT, its attention and its messages go, its points go to NO_SOURCE and its pending triggers are
dropped, the reports in that order behind DEVICE_LOST, which carries zeros for an absent seen identity (log 25). -/
structure StationLost (a : Nat) (state : RosterState) (cause : Byte) (s t : State) : Prop where
  rest :
    let mine := fun o => decide (∃ x, slotAt s.sched.active o = some x ∧ x.address = a)
    let goes := fun m : Message => m.destination == a && !(m.state == .inFlight && m.onLine)
    t = { s with
          sched := { s.sched with
            waiting := s.sched.waiting.filter fun o => !mine o
            absentTally := s.sched.absentTally + BitVec.ofNat 32 (s.sched.waiting.filter mine).length }
          roster := (s.setEntry a { s.entry a with state := state }).roster
          attention := s.attention.filter fun b => b != a
          outbound := (s.outbound.filter fun m => !goes m).map fun m =>
            if m.destination = a then { m with gone := true } else m
          points := s.points.map fun p =>
            if s.sched.mode = .run ∧ p.key.address = a ∧ p.quality ≠ .offline then { p with quality := .noSource } else p
          reports := t.reports, conds := t.conds, lines := t.lines }
  raised :
    let goes := s.outbound.filter fun m => m.destination == a && !(m.state == .inFlight && m.onLine)
    let lost := [byteOf a, cause] ++ ((s.entry a).seen.map identityBytes).getD (List.replicate 8 0) ++
      optCycleBytes (s.entry a).lastHeard
    let leaves := fun p : Point =>
      if s.sched.mode = .run ∧ p.key.address = a ∧ p.quality ≠ .offline then { p with quality := .noSource } else p
    let dropped := allLines.filterMap fun i =>
      match s.lines.records[i] with
      | .input l => l.binding.bind fun k =>
        if k.address = a ∧ l.pending = true ∧ l.cueOnLine = false then
          some (ReportKind.triggerDropped, [byteOf i.val, byteOf k.address, byteOf k.number, 1])
        else none
      | _ => none
    RaisedExactly (changeReports leaves s.points ++ dropped)
      (((s.raising [(.deviceLost, lost)]).settling goes 2 [])) t
  mirrors : MirrorsFollow s t
  others : ∀ i : Fin 8, s.lines.records[i].mirror = none → t.lines.pins[i] = s.lines.pins[i] ∧
    t.lines.records[i] = match s.lines.records[i] with
      | .input l => .input { l with
          pending := l.pending && !(!l.cueOnLine && (l.binding.map (·.address)) == some a) }
      | r => r

/-- R35, R57-R59: what MISS, GARBLED and WRONG make of a state in which a record ends: one miss is counted, and the record's
owner acts; at the miss limit the station is lost with all the consequences, in which its messages and triggers end. -/
def Unanswered (r : Record) (u w : State) : Prop :=
  (u.keepsStation r → w = ((u.missed r).ownerActs r none).discarded) ∧
  (¬ u.keepsStation r → 1 ≤ r.target → r.target ≤ 62 → u.keysDistinct → u.RecordLaw →
    ∃ t : State, StationLost r.target .lost 0 ((u.offLine r).missed r) t ∧
      w = (if r.origin = .fetch then t.releasing else t).discarded)

/-- R49, R55: what GARBLED makes of a state in which a record ends. A garbled answer to ROLL counts no miss: at a VACANT or
LOST entry it is a clash, and the first one is reported. -/
def GarbledEnds (r : Record) (u w : State) : Prop :=
  let e := u.entry r.target
  let clash := u.setEntry r.target { e with clash := min 255 (e.clash + 1) }
  (r.kind ≠ .roll → Unanswered r u w) ∧
  (r.kind = .roll → w = State.discarded (State.ownerActs r none
    (if e.state ≠ .vacant ∧ e.state ≠ .lost then u
     else if e.clash = 0 then clash.raising [(.addressClash, [byteOf r.target])] else clash)))

/-- R164, R166: the verdict on an echo goes to the echo check. GARBLED, given before a start delimiter, counts as none, and the
first verdict stands (log 10). -/
def State.echoNoted (v : Verdict) (s : State) : State :=
  { s with seg := { s.seg with
      echo := if v ≠ .garbled ∧ s.seg.transmitter ≠ .idle ∧ s.seg.echo = none then some v else s.seg.echo } }

/-- R30, R38: a record that no frame can answer: it is in WAITING_LINE or SENDING, or its deadline has passed (log 16). -/
def Record.awaitsNone (r : Record) (now : Nat) : Prop :=
  (∃ since, r.phase = .waitingLine since ∨ r.phase = .sending since) ∨ ∃ deadline, r.phase = .awaiting deadline ∧ deadline < now

/-- R31, R38, R164: what a verdict other than GOOD makes of a state: on an echo it goes to the echo check; on a frame that no
record awaits it counts a stray frame; and it ends a record in RECEIVING as GARBLED. -/
def UnsoundVerdict (f : FrameInProgress) (v : Verdict) (u w : State) : Prop :=
  (f.echo = true → w = u.echoNoted v) ∧
  (f.echo = false → (∀ r, u.txn.record = some r → r.awaitsNone u.now) →
    w = { u with txn := { u.txn with stray := u.txn.stray + 1 } }) ∧
  ∀ r, f.echo = false → u.txn.record = some r → r.phase = .receiving → u.tagsDistinct → GarbledEnds r u w

/-! ## The part's own frame on the line (R157-R159, R165) -/

/-- R159: the check of a body: the bits of its bytes, the most significant first, go through the register of x^16 + x^12 +
x^5 + 1 from FFFFh, which is complemented at the end. -/
def checkOf (body : List Byte) : Word16 :=
  ~~~ body.foldl (init := 0xFFFF) fun reg b => (List.range 8).foldl (init := reg) fun g k =>
    if g.getMsbD 0 = b.getMsbD k then g <<< 1 else (g <<< 1) ^^^ 0x1021

/-- R158: the symbols of a frame: preamble, start delimiter, body and check with the least significant bit of each byte first,
end delimiter. -/
def symbolsOf (body : List Byte) : List Symbol :=
  let check := [(checkOf body).extractLsb' 8 8, (checkOf body).extractLsb' 0 8]
  [.one, .zero, .one, .zero, .one, .zero, .one, .zero, .one, .zero, .one, .zero] ++
    [.vPlus, .vPlus, .one, .vMinus, .zero, .vMinus] ++
    ((body ++ check).flatMap fun b => (List.range 8).map fun k => if b.getLsbD k then .one else .zero) ++
    [.vMinus, .one, .vPlus, .vPlus, .zero, .vMinus]

/-- R157: the level of a symbol, true for high, in its first and in its second half-bit. -/
def levelOfHalf (x : Symbol) (second : Bool) : Bool :=
  match x with
  | .one => !second
  | .zero => second
  | .vPlus => true
  | .vMinus => false

/-! ## Answers (R32, R49-R57, R117) -/

/-- A record is in RECEIVING, and the receiver has completed the start delimiter of a frame of a polarity that is not the
part's own. -/
structure Receiving (r : Record) (f : FrameInProgress) (inverted : Bool) (s : State) : Prop where
  running : s.inReset = false
  held : s.txn.record = some r
  phase : r.phase = .receiving
  receiver : s.seg.receiver = .body f inverted [] [] []
  notEcho : f.echo = false

/-- R157: symbols as a crossed pair of conductors gives them. -/
def polarised (inverted : Bool) (xs : List Symbol) : List Symbol := if inverted then xs.map symbolInverse else xs

/-- R160: a frame in progress once a run of symbols has been read. -/
def FrameInProgress.afterSymbols (f : FrameInProgress) (bit : Nat) (xs : List Symbol) : FrameInProgress :=
  xs.foldl (fun g x => g.afterSymbol bit x) f

/-- R160, R164: n bytes and the end delimiter of a frame have been read behind its start delimiter. The instants are counted
from its symbols (log 8). -/
def State.frameEnded (f : FrameInProgress) (n : Nat) (s : State) : State :=
  let ended := f.start + (f.count + 8 * n + 6) * s.bits 1
  { s with
    now := max s.now ended
    seg := { s.seg with
      receiver := .quiet, lastEndDelimiter := max s.seg.lastEndDelimiter ended
      lastTransition := max s.seg.lastTransition (ended - s.bits 1) } }

/-- R163: a frame has been given up after a run of symbols behind its start delimiter: the receiver drains it. -/
def State.frameGivenUpAfter (f : FrameInProgress) (xs : List Symbol) (s : State) : State :=
  { s with
    now := max s.now (f.start + (f.count + xs.length) * s.bits 1)
    seg := { s.seg with
      receiver := .drain
      lastTransition := max s.seg.lastTransition (f.afterSymbols (s.bits 1) xs).lastTransition } }

/-- R163: a frame has been given up after n bit times of its symbols since its start delimiter: the receiver drains it. -/
def State.frameGivenUp (f : FrameInProgress) (n lastTransition : Nat) (s : State) : State :=
  { s with
    now := max s.now (f.start + (f.count + n) * s.bits 1)
    seg := { s.seg with receiver := .drain, lastTransition := lastTransition } }

/-- R32: the four checks a frame must pass to be the expected answer: its kind, its address, its length, and the point number
or the tag. -/
def Expected.metBy (e : Expected) (body : List Byte) : Prop :=
  let kind := (body.getD 0 0).toNat / 16
  let address := (body.getD 1 0).toNat % 64
  match e with
  | .pub a n => kind = 3 ∧ address = a ∧ 5 ≤ body.length ∧ body.length ≤ 36 ∧ (body.getD 2 0).toNat = n
  | .answer a => kind = 5 ∧ address = a ∧ body.length = 10
  | .note a => kind = 7 ∧ address = a ∧ 2 ≤ body.length ∧ body.length ≤ 50
  | .reply a tag => kind = 9 ∧ address = a ∧ 4 ≤ body.length ∧ body.length ≤ 51 ∧ body.getD 2 0 = tag

/-- R56: the entry takes the polarity of the frame, and a change of it is reported. -/
def State.turning (a : Nat) (inverted : Bool) (s : State) : State :=
  if (s.entry a).inverted = inverted then s
  else (s.setEntry a { s.entry a with inverted := inverted }).raising [(.deviceInverted, [byteOf a, flagByte inverted])]

/-- R56, R57: the station of an address has answered a CUE, FETCH or SEND. -/
def State.heardFrom (a : Nat) (inverted : Bool) (s : State) : State :=
  State.turning a inverted
    (if s.stationActive a then s.setEntry a { s.entry a with miss := 0, lastHeard := some s.sched.cycle } else s)

/-- R117: an ACTIVE station that asks for attention joins the list's tail unless it stands there. -/
def State.attending (a : Nat) (attention : Bool) (s : State) : State :=
  if attention = true ∧ s.stationActive a = true ∧ a ∉ s.attention then { s with attention := s.attention ++ [a] } else s

/-- R38, R139: a GOOD frame of a kind that only a master sends is foreign traffic: FOREIGN becomes active, with its report
if it was not, and the sighting is remembered. -/
def State.sighting (body : List Byte) (s : State) : State :=
  let kind := (body.getD 0 0).toNat / 16
  if kind ∈ [1, 2, 4, 6, 8] then
    let t :=
      if s.conds.foreign.active then s
      else State.raising
        [(.foreignTraffic, [byteOf kind, byteOf ((body.getD 1 0).toNat % 64), modeCode s.sched.mode] ++
          optCycleBytes (if s.sched.mode = .run then some s.sched.cycle else none))]
        { s with conds := { s.conds with foreign := { active := true, latched := true } } }
    { t with txn := { t.txn with seenThisCycle := true, lastForeign := some s.now } }
  else s

/-! ## Gap work (R93-R97) -/

/-- R93, R94: the line's trigger is no candidate, or it is one that does not fit. -/
def State.triggerPassed (s : State) (i : Fin 8) : Prop :=
  ∀ l, s.lines.records[i] = .input l → l.pending = true →
    ∀ k, l.binding = some k → s.stationActive k.address = true ∧
      ∀ p, s.point k = some p → s.fits 3 (4 + p.length) = false

/-- R95, R103: a message, with those before and behind it, is what the queue offers in its class: the one in flight with no
attempt on the line, or, with none in flight, the oldest of its class. -/
def State.offers (s : State) (pre : List Message) (m : Message) (post : List Message) : Prop :=
  s.outbound = pre ++ m :: post ∧
    ((m.state = .inFlight ∧ m.onLine = false ∧ ∀ x ∈ pre, x.state = .queued) ∨
      ((∀ x ∈ s.outbound, x.state = .queued) ∧ ∀ x ∈ pre, x.cls ≠ m.cls))

/-- R93, R95: the queue offers no message of the class, or one that does not fit. -/
def State.messagePassed (s : State) (c : MessageClass) : Prop :=
  ∀ pre m post, s.offers pre m post → m.cls = c → s.fits (3 + m.payload.length) 51 = false

/-- R93, R96: no FETCH is a candidate, or it does not fit. -/
def State.fetchPassed (s : State) : Prop := s.attention = [] ∨ s.canReserve = false ∨ s.fits 2 50 = false

/-! ## Laws that every command keeps -/

/-- A FETCH is in flight. -/
def State.fetchInFlight (s : State) : Bool :=
  match s.txn.record with
  | some r => r.origin == .fetch
  | none => false

/-- R104, R118, R124, R130: reservations are those of the held messages and of a FETCH in flight; entries and reservations
never exceed 32; at most 8 entries are SENT. It says nothing of a part held in reset, whose record is dropped (R45). -/
def State.ReportPlacesLaw (s : State) : Prop :=
  s.inReset = false →
    s.reports.reservations = s.outbound.length + (if s.fetchInFlight then 1 else 0) ∧
      s.reports.places ≤ Config.reportPlaces ∧ s.reports.sent.length ≤ Config.reportWindow

/-- R103: at most 16 messages, no two with one tag, at most one IN_FLIGHT. -/
def State.OutboundLaw (s : State) : Prop :=
  s.outbound.length ≤ Config.messageCapacity ∧ (s.outbound.map (·.tag)).Nodup ∧
    (s.outbound.filter fun m => m.state == .inFlight).length ≤ 1

/-- R26, R77: in CONFIG no transaction is in flight, and every entry is VACANT or BARRED. The transmitter is away from IDLE
only while a record is in SENDING. -/
def State.ConfigLaw (s : State) : Prop :=
  (s.sched.mode = .config →
    s.txn.record = none ∧ ∀ a, (s.entry a).state = .vacant ∨ (s.entry a).state = .barred) ∧
  (s.seg.transmitter.busy = true → ∃ r since, s.txn.record = some r ∧ r.phase = .sending since)

/-- R70, R71: a point's key is in range; it is OFFLINE exactly outside RUN; in RUN, NO_SOURCE exactly while the publisher
is not ACTIVE; GOOD only while the age does not exceed the stale limit. -/
def State.QualityLaw (s : State) : Prop :=
  ∀ p ∈ s.points,
    p.key.valid = true ∧ (p.quality = .offline ↔ s.sched.mode ≠ .run) ∧
    (s.sched.mode = .run → (p.quality = .noSource ↔ s.stationActive p.key.address = false)) ∧
    (p.quality = .good → p.age ≤ p.staleLimit)

/-- R48, R50, R116: every ACTIVE or HELD entry has a seen identity, and no two of them the same; the attention list holds ACTIVE
stations, none twice; the probe pointer holds a station's address. -/
def State.IdentityLaw (s : State) : Prop :=
  (∀ a, (s.entry a).state = .active ∨ (s.entry a).state = .held → (s.entry a).seen ≠ none) ∧
  (∀ a b, a ≠ b → (s.entry a).state = .active ∨ (s.entry a).state = .held →
    (s.entry b).state = .active ∨ (s.entry b).state = .held → (s.entry a).seen ≠ (s.entry b).seen) ∧
  s.attention.Nodup ∧ (∀ a ∈ s.attention, s.stationActive a = true) ∧
  1 ≤ s.roster.probePointer ∧ s.roster.probePointer ≤ Config.stationCount

/-- R126, R138, R139, R168: an active condition is latched; CYCLE_LATE is never active; REPORT_LOSS is active exactly while
reports have been lost; BABBLE exactly during a babble fault. -/
def State.ConditionLaw (s : State) : Prop :=
  (∀ n, (s.conds.get n).active = true → (s.conds.get n).latched = true) ∧
  s.conds.cycleLate.active = false ∧ (s.conds.reportLoss.active = true ↔ 0 < s.reports.lossTally) ∧
  s.conds.babble.active = s.seg.babbleFault

/-- R8: a bank holds at most 64 slots in strictly ascending offset, each within the period and naming a declared point. -/
def State.bankLawful (s : State) (bank : List Slot) : Prop :=
  bank.length ≤ Config.slotsPerBank ∧ (bank.map (·.offset)).Pairwise (· < ·) ∧
    ∀ x ∈ bank, slotInRange s.sched.params.period x = true ∧ s.point x.key ≠ none

/-- R8, R143, R70: both banks are lawful, every binding of a line names a declared point, and the points are in strict key
order and number at most 96. -/
def State.ReferenceLaw (s : State) : Prop :=
  s.bankLawful s.sched.active ∧ s.bankLawful s.sched.shadow ∧
  (∀ (i : Fin 8) (k : Key), s.lines.records[i].trigger = some k ∨ s.lines.records[i].mirror = some k → s.point k ≠ none) ∧
  (s.points.map (·.key)).Pairwise (fun k l => k.before l = true) ∧ s.points.length ≤ Config.pointCapacity

/-- R6, R20: no slot waits outside RUN. The waiting slots stand in ascending order of offset; each is a slot of the active bank,
due in the current cycle, whose nominal time has been taken. -/
def State.WaitingLaw (s : State) : Prop :=
  (s.sched.mode ≠ .run → s.sched.waiting = []) ∧ s.sched.waiting.Pairwise (· < ·) ∧
  ∀ o ∈ s.sched.waiting, o ∈ s.sched.presented ∧
    ∃ x, slotAt s.sched.active o = some x ∧ s.sched.cycle.toNat % x.divisor = x.phase

/-- R177, R178, R183: at most two frames wait in the receive buffer, the tallies hold at 65535, and at most one response is
in hand: one waits only behind a report being sent. -/
def State.LinkLaw (s : State) : Prop :=
  s.link.buffer.length ≤ Config.bufferPlaces ∧ s.link.timeoutTally ≤ 65535 ∧ s.link.crcTally ≤ 65535 ∧
  s.link.formatTally ≤ 65535 ∧ s.link.overrunTally ≤ 65535 ∧
  (s.link.waiting ≠ none → s.link.sending ≠ none ∧ s.link.sendingResponse = false)

end Machine

end Sys2Proof
end

