-- ==== Sys2Proof/Certificates/Slice0/Obligations.lean ====
section
/-! DEFINITION. The statements for the provers, in the order of OBLIGATIONS.json. -/

open Sys2Proof Sys2Proof.Machine

/-! ## The queue of commands and the taking of requests -/

/-- A step with a command at the front of the queue runs that command with the queue's rest; on an empty queue it lets one
clock period pass and changes nothing else (the latter is the model's choice, log 1). -/
def Obligations.StepRunsFrontCommand : Prop :=
  (∀ (c : Instr) (rest : List Instr) (s : State), s.pending = c :: rest →
    step s = exec c { s with pending := rest }) ∧
  ∀ s : State, s.pending = [] → step s = .next { s with now := s.now + 1 }

/-- No command touches the queue of commands or turns the clock back. The queue and the clock are the model's own (log
1). -/
def Obligations.CommandKeepsQueueAndClock : Prop :=
  ∀ (c : Instr) (s t : State), exec c s = .next t → t.pending = s.pending ∧ s.now ≤ t.now

/-- R188: while the RESET pin is held, no command but the pin's release acts on the part; a local pin's level still
follows the outside, and nothing but that pin changes. That the pins alone follow the outside then is the model's choice
(log 7). -/
def Obligations.HeldResetIgnoresCommands : Prop :=
  ∀ s : State, s.inReset = true →
    (∀ c : Instr, c ≠ .resetPinAsserted → (∀ cause, c ≠ .hardReset cause) → (∀ i v, c ≠ .localLinePinChange i v) →
      exec c s = .next s) ∧
    ∀ (i : Fin 8) (v : Level),
      exec (.localLinePinChange i v) s = .next { s with lines := { s.lines with pins := s.lines.pins.set i v } }

/-- R179, R180: a request is not taken while a response is in hand or another frame heads the buffer; a repeat is answered
with the stored response as it was first produced, not performed, and the record stays. A request that comes to an empty
buffer has been judged valid and is taken at the same instant. That a request not taken leaves the state as it was, and that
the command of a request stands for its frame's arrival when the buffer is empty, are the model's choices (log 4). -/
def Obligations.RequestWaitsOrReplays : Prop :=
  ∀ (r : RequestName) (num : Word16) (p : List Byte) (s : State),
    (s.link.responseInHand = true ∨ (∃ g rest, s.link.buffer = g :: rest ∧ g ≠ requestFrame r num p) →
      exec (requestCommand r num p) s = .next s) ∧
    (∀ l, Taken (requestFrame r num p) s → s.link.lastRequest = some l → l.code = requestCode r → l.num = num →
      num ≠ 0 → exec (requestCommand r num p) s = .next (s.taken.handed l.response)) ∧
    (s.inReset = false → s.link.responseInHand = false → s.link.buffer = [] →
      exec (requestCommand r num p) s = exec (requestCommand r num p) (s.arrived (requestFrame r num p)))

/-- R179 steps 3 and 4, R181, R193: a payload of a length the request does not allow is answered BAD_LENGTH; the four requests a
mode can refuse are refused in the modes of R181; nothing else happens. -/
def Obligations.LengthAndModeAreCheckedFirst : Prop :=
  (∀ (r : RequestName) (num : Word16) (p : List Byte) (s : State),
    TakenFresh (requestFrame r num p) s → ¬ LengthOf r p.length →
      exec (requestCommand r num p) s = .next (s.onlyAnswered r num (.plain .badLength))) ∧
  ∀ (num : Word16) (p : List Byte) (s : State),
    (TakenFresh (requestFrame .configure num p) s → p.length ≤ 192 → p.length % 3 = 0 → s.sched.mode ≠ .config →
      exec (.configure num p) s = .next (s.onlyAnswered .configure num (.plain .wrongMode))) ∧
    (TakenFresh (requestFrame .start num []) s → s.sched.mode ≠ .config →
      exec (.start num []) s = .next (s.onlyAnswered .start num (.plain .wrongMode))) ∧
    (TakenFresh (requestFrame .stop num []) s → s.sched.mode ≠ .run →
      exec (.stop num []) s =
        .next (s.onlyAnswered .stop num (.plain (if s.sched.mode = .config then .wrongMode else .busy)))) ∧
    (TakenFresh (requestFrame .send num p) s → 4 ≤ p.length → p.length ≤ 52 → s.sched.mode ≠ .run →
      exec (.send num p) s = .next (s.onlyAnswered .send num (.plain .wrongMode)))

/-- R179 step 2, R192, R193: the codes of the requests and of the results, and the answer to a code that names no request. The command of an unknown request with a
code that names a request does nothing, and at an empty buffer it stands for the frame's arrival: the model's choices
(logs 3, 4). -/
def Obligations.UnknownCodeIsAnswered : Prop :=
  ([.configure, .readConfig, .start, .stop, .addSlot, .deleteSlot, .clearShadow, .copyActive, .readSlots, .swap,
      .cancelSwap].map requestCode = [0x01, 0x02, 0x03, 0x04, 0x05, 0x06, 0x07, 0x08, 0x09, 0x0A, 0x0B] ∧
    [.admitStation, .bar, .unbar, .provision, .forget, .readDevice, .listDevices].map requestCode =
      [0x20, 0x21, 0x22, 0x23, 0x24, 0x25, 0x26] ∧
    [.declare, .withdraw, .readPoint, .watch, .send, .cancel, .listMessages].map requestCode =
      [0x30, 0x31, 0x32, 0x33, 0x40, 0x41, 0x42] ∧
    [.ackReports, .resendReports, .setLevel, .readConditions, .clearConditions, .setLine, .writeLine,
      .readLines].map requestCode = [0x50, 0x51, 0x52, 0x53, 0x54, 0x60, 0x61, 0x62] ∧
    [.identify, .status, .setLinkRate, .restart].map requestCode = [0x70, 0x71, 0x72, 0x73] ∧
    [.ok, .unknownRequest, .badLength, .badArgument, .wrongMode, .wrongState, .busy, .full, .exists_, .notFound,
      .referenced, .notPresent, .tagInUse, .tooLate].map resultCode =
      [0x00, 0x01, 0x02, 0x03, 0x04, 0x05, 0x06, 0x07, 0x08, 0x09, 0x0A, 0x0B, 0x0C, 0x0D]) ∧
  ∀ (code : Byte) (num : Word16) (p : List Byte) (s : State),
    (codeKnown code = true ↔
      (0x01 ≤ code.toNat ∧ code.toNat ≤ 0x0B) ∨ (0x20 ≤ code.toNat ∧ code.toNat ≤ 0x26) ∨
      (0x30 ≤ code.toNat ∧ code.toNat ≤ 0x33) ∨ (0x40 ≤ code.toNat ∧ code.toNat ≤ 0x42) ∨
      (0x50 ≤ code.toNat ∧ code.toNat ≤ 0x54) ∨ (0x60 ≤ code.toNat ∧ code.toNat ≤ 0x62) ∨
      (0x70 ≤ code.toNat ∧ code.toNat ≤ 0x73)) ∧
    (codeKnown code = false → TakenFresh { code := code, num := num, payload := p } s →
      exec (.unknownRequest code num p) s = .next (s.taken.answeredCode code num (.plain .unknownRequest))) ∧
    (codeKnown code = false → s.inReset = false → s.link.responseInHand = false → s.link.buffer = [] →
      exec (.unknownRequest code num p) s =
        exec (.unknownRequest code num p) (s.arrived { code := code, num := num, payload := p })) ∧
    (codeKnown code = true → exec (.unknownRequest code num p) s = .next s)

/-! ## Requests that read (R4, R12, R24, R64, R65, R74, R115, R140, R154, R185, R186, R194) -/

/-- READ_CONFIG, IDENTIFY and READ_CONDITIONS answer their bytes and change nothing. -/
def Obligations.FixedReadsAnswer : Prop :=
  ∀ (num : Word16) (s : State),
    (TakenFresh (requestFrame .readConfig num []) s →
      ∃ bs, bs.length = 16 ∧ (∀ n < 8, bytesAt bs (2 * n) 2 = s.sched.params.value (n + 1) % 65536) ∧
        exec (.readConfig num []) s = .next (s.onlyAnswered .readConfig num (.okWith bs))) ∧
    (TakenFresh (requestFrame .identify num []) s →
      exec (.identify num []) s =
        .next (s.onlyAnswered .identify num (.okWith [0x0E, 0x21, 0x0A, 0x32, 1, 62, 64, 96, 16, 32, 8, 8, 192]))) ∧
    (TakenFresh (requestFrame .readConditions num []) s →
      exec (.readConditions num []) s = .next (s.onlyAnswered .readConditions num (.okWith
        [flagByte s.conds.babble.active, flagByte s.conds.babble.latched,
         flagByte s.conds.noEcho.active, flagByte s.conds.noEcho.latched,
         flagByte s.conds.foreign.active, flagByte s.conds.foreign.latched,
         flagByte s.conds.cycleLate.active, flagByte s.conds.cycleLate.latched,
         flagByte s.conds.reportLoss.active, flagByte s.conds.reportLoss.latched,
         flagByte s.conds.hostSilent.active, flagByte s.conds.hostSilent.latched,
         flagByte (decide (∃ a ∈ stationAddresses, (s.entry a).state = .held))])))

/-- STATUS answers 56 bytes with each item of R186 in its place (R194), an absent one as zeros (R191), and changes nothing.
SENT entries are kept apart from UNSENT ones (log 20). -/
def Obligations.StatusAnswersSnapshot : Prop :=
  ∀ (num : Word16) (s : State), TakenFresh (requestFrame .status num []) s →
    ∃ bs : List Byte, bs.length = 56 ∧
      exec (.status num []) s = .next (s.onlyAnswered .status num (.okWith bs)) ∧
      bs.take 1 = [modeCode s.sched.mode] ∧ bytesAt bs 1 4 = s.sched.cycle.toNat ∧
      bytesAt bs 5 1 = s.sched.active.length % 256 ∧ bytesAt bs 6 1 = s.sched.shadow.length % 256 ∧
      (bs.drop 7).take 1 = [flagByte s.sched.swapPending] ∧
      bytesAt bs 8 4 = s.sched.skipTotal.toNat ∧ bytesAt bs 12 4 = s.sched.absentTally.toNat ∧
      (∀ r, s.txn.record = some r → (bs.drop 16).take 3 = [1, phaseCode r.phase, originCode r.origin]) ∧
      (s.txn.record = none → (bs.drop 16).take 3 = [0, 0, 0]) ∧ bytesAt bs 19 4 = s.txn.stray.toNat ∧
      bytesAt bs 23 1 = (addressesIn .vacant s).length ∧ bytesAt bs 24 1 = (addressesIn .active s).length ∧
      bytesAt bs 25 1 = (addressesIn .held s).length ∧ bytesAt bs 26 1 = (addressesIn .lost s).length ∧
      bytesAt bs 27 1 = (addressesIn .barred s).length ∧
      (bs.drop 28).take 1 = [flagByte (decide (addressesIn .held s ≠ []))] ∧
      bytesAt bs 29 1 = s.points.length % 256 ∧
      (bs.drop 30).take 1 = [alternationCode s.gap.alternation] ∧ bytesAt bs 31 1 = s.gap.probesStarted % 256 ∧
      bytesAt bs 32 1 = (s.outbound.filter fun m => m.cls == .urgent).length % 256 ∧
      bytesAt bs 33 1 = (s.outbound.filter fun m => m.cls == .normal).length % 256 ∧
      (∀ m, s.outbound.find? (fun m => m.state == .inFlight) = some m → (bs.drop 34).take 2 = [1, m.tag]) ∧
      (s.outbound.find? (fun m => m.state == .inFlight) = none → (bs.drop 34).take 2 = [0, 0]) ∧
      bytesAt bs 36 1 = s.attention.length % 256 ∧
      bytesAt bs 37 1 = (s.reports.unsent.length + s.reports.sent.length) % 256 ∧
      bytesAt bs 38 1 = s.reports.sent.length % 256 ∧ bytesAt bs 39 1 = s.reports.reservations % 256 ∧
      bytesAt bs 40 2 = s.reports.lossTally % 65536 ∧ bytesAt bs 42 2 = s.reports.counter.toNat ∧
      bytesAt bs 44 4 = baud s.link.rate ∧ bytesAt bs 48 2 = s.link.timeoutTally % 65536 ∧
      bytesAt bs 50 2 = s.link.crcTally % 65536 ∧ bytesAt bs 52 2 = s.link.formatTally % 65536 ∧
      bytesAt bs 54 2 = s.link.overrunTally % 65536

/-- READ_LINES answers seven bytes a line, L0 first, and LIST_MESSAGES six bytes a message in offering order; neither
changes anything. -/
def Obligations.LineAndMessageReadsAnswer : Prop :=
  ∀ (num : Word16) (s : State),
    (TakenFresh (requestFrame .readLines num []) s →
      ∃ bs : List Byte, bs.length = 56 ∧
        exec (.readLines num []) s = .next (s.onlyAnswered .readLines num (.okWith bs)) ∧
        ∀ i : Fin 8, (bs.drop (7 * i.val)).take 7 =
          match s.lines.records[i] with
          | .off => [0, levelCode s.lines.pins[i], 0, 0, 0, 0, 0]
          | .input l => [1, levelCode s.lines.pins[i], levelCode l.filtered] ++ be16 l.edgeCount.toNat ++
              [flagByte l.pending, flagByte l.cueOnLine]
          | .outputHost l =>
              [2, levelCode s.lines.pins[i], levelCode l.current, levelCode l.held, flagByte l.forcedSafe, 0, 0]
          | .outputMirror l =>
              [3, levelCode s.lines.pins[i], levelCode l.current, levelCode l.held,
               flagByte (decide (∀ q, s.point l.binding = some q → q.quality ≠ .good)), 0, 0]) ∧
    (TakenFresh (requestFrame .listMessages num []) s →
      exec (.listMessages num []) s = .next (s.onlyAnswered .listMessages num (.okWith
        (byteOf s.outbound.length ::
          (s.outbound.filter (fun m => m.state == .inFlight) ++
            s.outbound.filter (fun m => m.state == .queued && m.cls == .urgent) ++
            s.outbound.filter (fun m => m.state == .queued && m.cls == .normal)).flatMap fun m =>
              [m.tag, byteOf m.destination, messageClassCode m.cls, messageStateCode m.state, byteOf m.made,
               flagByte m.onLine]))))

/-- R12, R64, R65, R74: READ_SLOTS answers the count, up to eight slots from an offset on, and whether more follow;
READ_DEVICE the whole entry; LIST_DEVICES the addresses in a state; READ_POINT the record; none changes anything. -/
def Obligations.KeyedReadsAnswer : Prop :=
  ∀ (num : Word16) (b : Byte) (s : State),
    (∀ hi lo : Byte, TakenFresh (requestFrame .readSlots num [b, hi, lo]) s →
      exec (.readSlots num [b, hi, lo]) s = .next (s.onlyAnswered .readSlots num
        (if 1 < b.toNat then .plain .badArgument
         else
          let bank := if b.toNat = 0 then s.sched.active else s.sched.shadow
          let above := bank.filter fun x => decide (hi.toNat * 256 + lo.toNat ≤ x.offset)
          .okWith ([byteOf bank.length, byteOf (min 8 above.length), flagByte (decide (8 < above.length))] ++
            (above.take 8).flatMap fun x =>
              be16 x.offset ++ [byteOf x.address, byteOf x.number, byteOf x.divisor, byteOf x.phase])))) ∧
    (TakenFresh (requestFrame .readDevice num [b]) s →
      exec (.readDevice num [b]) s = .next (s.onlyAnswered .readDevice num
        (if 1 ≤ b.toNat ∧ b.toNat ≤ 62 then
          .okWith ([rosterStateCode (s.entry b.toNat).state] ++ optIdentityBytes (s.entry b.toNat).expected ++
            optIdentityBytes (s.entry b.toNat).seen ++
            [byteOf (s.entry b.toNat).miss, byteOf (s.entry b.toNat).clash, flagByte (s.entry b.toNat).inverted] ++
            optCycleBytes (s.entry b.toNat).lastHeard)
         else .plain .badArgument))) ∧
    (TakenFresh (requestFrame .listDevices num [b]) s →
      exec (.listDevices num [b]) s = .next (s.onlyAnswered .listDevices num
        (if b.toNat ≤ 4 then
          let as := stationAddresses.filter fun a => rosterStateCode (s.entry a).state == b
          .okWith ([byteOf as.length, byteOf s.roster.probePointer] ++ as.map byteOf)
         else .plain .badArgument))) ∧
    (∀ n : Byte, TakenFresh (requestFrame .readPoint num [b, n]) s →
      exec (.readPoint num [b, n]) s = .next (s.onlyAnswered .readPoint num
        (if ¬ (1 ≤ b.toNat ∧ b.toNat ≤ 62 ∧ n.toNat ≤ 15) then .plain .badArgument
         else
          match s.point { address := b.toNat, number := n.toNat } with
          | none => .plain .notFound
          | some p => .okWith
              ([b, n, byteOf p.length, p.status, qualityCode p.quality] ++ be16 p.age ++ [byteOf p.staleLimit] ++
                be16 p.updates.toNat ++ optCycleBytes p.lastUpdate ++ p.value))))

/-! ## Chapter 1: the cycle -/

/-- R2-R4: a CONFIGURE whose entries are in range, name no parameter twice and keep the period above every offset
applies them all; a new rate restarts the line unit's timing (R170) and a hold time the silence timer (R184). That the
receiver goes to DRAIN only when a frame is being decoded is the model's choice (log 15). -/
def Obligations.ConfigureAppliesAllEntries : Prop :=
  ∀ (num : Word16) (es : List (Nat × Nat)) (s : State),
    TakenFresh (requestFrame .configure num (Wire.configure es)) s → s.sched.mode = .config →
    (∀ e ∈ es, ParamAllowed e.1 e.2) → (es.map (·.1)).Nodup →
    (∀ e ∈ es, e.1 = 1 → ∀ x ∈ s.sched.active ++ s.sched.shadow, x.offset < e.2) →
    ∃ t : State, exec (.configure num (Wire.configure es)) s = .next (t.answered .configure num okReply) ∧
      (∀ e ∈ es, t.sched.params.value e.1 = e.2) ∧
      (∀ n, n ∉ es.map (·.1) → t.sched.params.value n = s.sched.params.value n) ∧
      t = { s.taken with
            sched := { s.sched with params := t.sched.params }
            link := { s.taken.link with silenceStart := if 8 ∈ es.map (·.1) then s.now else s.link.silenceStart }
            seg :=
              if t.sched.params.rate = s.sched.params.rate then s.seg
              else { s.seg with
                      receiver := if s.seg.receiver.frame.isSome then .drain else s.seg.receiver
                      activity := .active, lastTransition := s.now, lastEndDelimiter := s.now
                      activeSince := s.now } }

/-- R2, R3: the first bad entry is named by its position; a period not above every offset is refused with the largest; a refused
CONFIGURE changes nothing. -/
def Obligations.ConfigureRefusesBadLists : Prop :=
  ∀ (num : Word16) (es : List (Nat × Nat)) (s : State),
    TakenFresh (requestFrame .configure num (Wire.configure es)) s → s.sched.mode = .config → es.length ≤ 64 →
    (∀ e ∈ es, e.1 < 256 ∧ e.2 < 65536) →
    (∀ pre e post, es = pre ++ e :: post → (∀ d ∈ pre, ParamAllowed d.1 d.2) → (pre.map (·.1)).Nodup →
      (¬ ParamAllowed e.1 e.2 ∨ e.1 ∈ pre.map (·.1)) →
      exec (.configure num (Wire.configure es)) s =
        .next (s.onlyAnswered .configure num { result := .badArgument, extra := [byteOf (pre.length + 1)] })) ∧
    ((∀ e ∈ es, ParamAllowed e.1 e.2) → (es.map (·.1)).Nodup →
      ∀ e ∈ es, e.1 = 1 → ∀ x ∈ s.sched.active ++ s.sched.shadow,
        (∀ y ∈ s.sched.active ++ s.sched.shadow, y.offset ≤ x.offset) → e.2 ≤ x.offset →
        exec (.configure num (Wire.configure es)) s =
          .next (s.onlyAnswered .configure num { result := .referenced, extra := be16 x.offset }))

/-- R5, R77, R83, R153: START from CONFIG: every point goes to NO_SOURCE, with its POINT_CHANGED in key order, and its mirrored
lines follow. -/
def Obligations.StartEntersRun : Prop :=
  ∀ (num : Word16) (s : State), TakenFresh (requestFrame .start num []) s → s.sched.mode = .config → s.keysDistinct →
    ∃ t : State, exec (.start num []) s = .next (t.answered .start num okReply) ∧
      RaisedExactly (changeReports (fun p => { p with quality := .noSource }) s.points) s.taken t ∧
      MirrorsOnly s t ∧ MirrorsFollow s t ∧
      t = { s.taken with
            sched := { s.sched with
              mode := .run, cycle := 0, cycleStart := s.now, summary := .empty, skipTotal := 0, absentTally := 0
              markWaiting := true, waiting := [], presented := [] }
            roster := { s.roster with probePointer := 1 }
            points := s.points.map fun p => { p with quality := .noSource }
            gap := { s.gap with probesStarted := 0 }
            txn := { s.txn with seenThisCycle := false }
            reports := t.reports, conds := t.conds, lines := t.lines }

/-- R6, R40, R77, R83, R153: STOP from RUN: every point goes OFFLINE, with its POINT_CHANGED in key order, and its mirrored
lines follow. The mode stays STOPPING until STOPPING_END, also with an idle transaction unit, where R7 ends STOPPING at
once: that the end is a command of its own is the model's choice (log 5). -/
def Obligations.StopEntersStopping : Prop :=
  ∀ (num : Word16) (s : State), TakenFresh (requestFrame .stop num []) s → s.sched.mode = .run → s.keysDistinct →
    ∃ t : State, exec (.stop num []) s = .next (t.answered .stop num okReply) ∧
      RaisedExactly (changeReports (fun p => { p with quality := .offline }) s.points)
        { s.taken with conds := { s.conds with foreign := t.conds.foreign } } t ∧
      MirrorsOnly s t ∧ MirrorsFollow s t ∧
      t.conds.foreign =
        { s.conds.foreign with
          active := s.conds.foreign.active &&
            !decide (∃ f, s.txn.lastForeign = some f ∧ f + 1024000 ≤ s.now) } ∧
      t = { s.taken with
            sched := { s.sched with mode := .stopping, markWaiting := false, waiting := [] }
            points := s.points.map fun p => { p with quality := .offline }
            reports := t.reports, conds := t.conds, lines := t.lines }

/-- R9: ADD_SLOT's checks in order, and where the slot joins. -/
def Obligations.AddSlotChecksThenJoins : Prop :=
  ∀ (num : Word16) (oh ol a n d ph : Byte) (s : State),
    TakenFresh (requestFrame .addSlot num [oh, ol, a, n, d, ph]) s →
    let x : Slot :=
      { offset := oh.toNat * 256 + ol.toNat, address := a.toNat, number := n.toNat, divisor := d.toNat
        phase := ph.toNat }
    exec (.addSlot num [oh, ol, a, n, d, ph]) s = .next
      (if s.sched.swapPending then s.onlyAnswered .addSlot num (.plain .busy)
       else if ¬ (0 < x.offset ∧ x.offset < s.sched.params.period ∧ 1 ≤ a.toNat ∧ a.toNat ≤ 62 ∧ n.toNat ≤ 15 ∧
          d.toNat ∈ [1, 2, 4, 8, 16, 32] ∧ ph.toNat < d.toNat) then s.onlyAnswered .addSlot num (.plain .badArgument)
       else if s.point { address := a.toNat, number := n.toNat } = none then
        s.onlyAnswered .addSlot num (.plain .notFound)
       else if ∃ y ∈ s.sched.shadow, y.offset = x.offset then s.onlyAnswered .addSlot num (.plain .exists_)
       else if 64 ≤ s.sched.shadow.length then s.onlyAnswered .addSlot num (.plain .full)
       else
        State.answered
          { s.taken with sched := { s.sched with
              shadow := s.sched.shadow.takeWhile (fun y => decide (y.offset ≤ x.offset)) ++
                x :: s.sched.shadow.dropWhile (fun y => decide (y.offset ≤ x.offset)) } }
          .addSlot num okReply)

/-- R10: DELETE_SLOT. -/
def Obligations.DeleteSlotRemovesSlot : Prop :=
  ∀ (num : Word16) (hi lo : Byte) (s : State), TakenFresh (requestFrame .deleteSlot num [hi, lo]) s →
    exec (.deleteSlot num [hi, lo]) s = .next
      (if s.sched.swapPending then s.onlyAnswered .deleteSlot num (.plain .busy)
       else if ∀ y ∈ s.sched.shadow, y.offset ≠ hi.toNat * 256 + lo.toNat then
        s.onlyAnswered .deleteSlot num (.plain .notFound)
       else
        State.answered
          { s.taken with sched := { s.sched with
              shadow := s.sched.shadow.filter fun y => y.offset != hi.toNat * 256 + lo.toNat } }
          .deleteSlot num okReply)

/-- R11: CLEAR_SHADOW and COPY_ACTIVE. -/
def Obligations.ShadowIsClearedOrCopied : Prop :=
  ∀ (num : Word16) (s : State),
    (TakenFresh (requestFrame .clearShadow num []) s →
      exec (.clearShadow num []) s = .next
        (if s.sched.swapPending then s.onlyAnswered .clearShadow num (.plain .busy)
         else State.answered { s.taken with sched := { s.sched with shadow := [] } } .clearShadow num okReply)) ∧
    (TakenFresh (requestFrame .copyActive num []) s →
      exec (.copyActive num []) s = .next
        (if s.sched.swapPending then s.onlyAnswered .copyActive num (.plain .busy)
         else
          State.answered { s.taken with sched := { s.sched with shadow := s.sched.active } } .copyActive num okReply))

/-- R13, R14: SWAP by mode. -/
def Obligations.SwapDependsOnMode : Prop :=
  ∀ (num : Word16) (s : State), TakenFresh (requestFrame .swap num []) s →
    exec (.swap num []) s = .next
      (match s.sched.mode with
       | .config =>
          State.answered { s.taken with sched := { s.sched with active := s.sched.shadow } } .swap num okReply
       | .run =>
          if s.sched.swapPending then s.onlyAnswered .swap num (.plain .busy)
          else State.answered { s.taken with sched := { s.sched with swapPending := true } } .swap num okReply
       | .stopping => s.onlyAnswered .swap num (.plain .busy))

/-- R15: CANCEL_SWAP. -/
def Obligations.CancelSwapClearsPendingSwap : Prop :=
  ∀ (num : Word16) (s : State), TakenFresh (requestFrame .cancelSwap num []) s →
    exec (.cancelSwap num []) s = .next
      (if s.sched.swapPending then
        State.answered { s.taken with sched := { s.sched with swapPending := false } } .cancelSwap num okReply
       else s.onlyAnswered .cancelSwap num (.plain .notFound))

/-! ## Chapter 3: the roster -/

/-- R53, R60, R78, R83, R153: ADMIT makes a HELD entry ACTIVE with its seen identity expected; its points go from NO_SOURCE to
NEVER in RUN, each with its POINT_CHANGED, the mirrored lines follow, and DEVICE_JOINED is raised. A HELD entry has a seen
identity in every state that a run reaches (log 25, EveryStepKeepsIdentities). -/
def Obligations.AdmitMakesHeldActive : Prop :=
  ∀ (num : Word16) (b : Byte) (s : State), TakenFresh (requestFrame .admitStation num [b]) s →
    (b.toNat < 1 ∨ 62 < b.toNat →
      exec (.admitStation num [b]) s = .next (s.onlyAnswered .admitStation num (.plain .badArgument))) ∧
    (1 ≤ b.toNat → b.toNat ≤ 62 → (s.entry b.toNat).state ≠ .held →
      exec (.admitStation num [b]) s = .next (s.onlyAnswered .admitStation num (.plain .wrongState))) ∧
    (∀ i, 1 ≤ b.toNat → b.toNat ≤ 62 → (s.entry b.toNat).state = .held → (s.entry b.toNat).seen = some i →
      s.keysDistinct →
      let joins := fun p : Point =>
        if s.sched.mode = .run ∧ p.key.address = b.toNat ∧ p.quality = .noSource then { p with quality := .never } else p
      ∃ t : State, exec (.admitStation num [b]) s = .next (t.answered .admitStation num okReply) ∧
        RaisedExactly (changeReports joins s.points ++ [(.deviceJoined, [b] ++ identityBytes i ++ [0, 1])]) s.taken t ∧
        MirrorsOnly s t ∧ MirrorsFollow s t ∧
        t = { s.taken with
              roster := (s.setEntry b.toNat
                { s.entry b.toNat with
                    state := .active, expected := some i, seen := some i, miss := 0, clash := 0 }).roster
              points := s.points.map joins
              reports := t.reports, conds := t.conds, lines := t.lines })

/-- R61: BAR of an entry that is not ACTIVE changes its state alone. -/
def Obligations.BarExcludesInactiveEntry : Prop :=
  ∀ (num : Word16) (b : Byte) (s : State), TakenFresh (requestFrame .bar num [b]) s →
    (b.toNat < 1 ∨ 62 < b.toNat →
      exec (.bar num [b]) s = .next (s.onlyAnswered .bar num (.plain .badArgument))) ∧
    (1 ≤ b.toNat → b.toNat ≤ 62 → s.stationActive b.toNat = false →
      exec (.bar num [b]) s = .next
        (State.answered
          { s.taken with roster := (s.setEntry b.toNat { s.entry b.toNat with state := .barred }).roster }
          .bar num okReply))

/-- R59, R61, R78, R112, R120, R150: BAR of an ACTIVE entry raises DEVICE_LOST and applies the loss consequences to waiting
slots, the attention list, messages, points, mirrored lines and triggers, in that order. For an ACTIVE entry without a seen
identity, which no run reaches (EveryStepKeepsIdentities), DEVICE_LOST carries eight zero bytes: the model's choice (log
25). -/
def Obligations.BarLosesActiveStation : Prop :=
  ∀ (num : Word16) (b : Byte) (s : State), TakenFresh (requestFrame .bar num [b]) s →
    1 ≤ b.toNat → b.toNat ≤ 62 → s.stationActive b.toNat = true → s.keysDistinct → s.tagsDistinct →
    ∃ t : State, exec (.bar num [b]) s = .next (t.answered .bar num okReply) ∧
      StationLost b.toNat .barred 1 s.taken t

/-- R62: UNBAR. -/
def Obligations.UnbarReturnsToVacant : Prop :=
  ∀ (num : Word16) (b : Byte) (s : State), TakenFresh (requestFrame .unbar num [b]) s →
    exec (.unbar num [b]) s = .next
      (if ¬ (1 ≤ b.toNat ∧ b.toNat ≤ 62) then s.onlyAnswered .unbar num (.plain .badArgument)
       else if (s.entry b.toNat).state ≠ .barred then s.onlyAnswered .unbar num (.plain .wrongState)
       else
        State.answered
          { s.taken with roster := (s.setEntry b.toNat
              { state := .vacant, expected := (s.entry b.toNat).expected, seen := none, miss := 0, clash := 0
                inverted := false, lastHeard := none }).roster }
          .unbar num okReply)

/-- R63: PROVISION and FORGET, in any state of the entry. -/
def Obligations.ExpectedIdentityIsSetOrForgotten : Prop :=
  ∀ (num : Word16) (b : Byte) (i : Identity) (s : State),
    (TakenFresh (requestFrame .provision num (b :: identityBytes i)) s →
      exec (.provision num (b :: identityBytes i)) s = .next
        (if ¬ (1 ≤ b.toNat ∧ b.toNat ≤ 62) then s.onlyAnswered .provision num (.plain .badArgument)
         else
          State.answered
            { s.taken with roster := (s.setEntry b.toNat { s.entry b.toNat with expected := some i }).roster }
            .provision num okReply)) ∧
    (TakenFresh (requestFrame .forget num [b]) s →
      exec (.forget num [b]) s = .next
        (if ¬ (1 ≤ b.toNat ∧ b.toNat ≤ 62) then s.onlyAnswered .forget num (.plain .badArgument)
         else
          State.answered
            { s.taken with roster := (s.setEntry b.toNat { s.entry b.toNat with expected := none }).roster }
            .forget num okReply))

/-! ## Chapter 4: the point cache -/

/-- R72: DECLARE's checks in order, and the record that joins in key order. -/
def Obligations.DeclareChecksThenJoins : Prop :=
  ∀ (num : Word16) (a n len lim : Byte) (s : State), TakenFresh (requestFrame .declare num [a, n, len, lim]) s →
    let k : Key := { address := a.toNat, number := n.toNat }
    exec (.declare num [a, n, len, lim]) s = .next
      (if ¬ (1 ≤ a.toNat ∧ a.toNat ≤ 62 ∧ n.toNat ≤ 15 ∧ 1 ≤ len.toNat ∧ len.toNat ≤ 32 ∧ 1 ≤ lim.toNat) then
        s.onlyAnswered .declare num (.plain .badArgument)
       else if s.point k ≠ none then s.onlyAnswered .declare num (.plain .exists_)
       else if 96 ≤ s.points.length then s.onlyAnswered .declare num (.plain .full)
       else
        State.answered
          { s.taken with points :=
              s.points.takeWhile (fun p => !k.before p.key) ++
                { key := k, length := len.toNat, value := List.replicate len.toNat 0, status := 0
                  quality :=
                    if s.sched.mode ≠ .run then .offline
                    else if s.stationActive a.toNat then .never else .noSource
                  age := 0, staleLimit := lim.toNat, updates := 0, lastUpdate := none, watch := .off } ::
                s.points.dropWhile (fun p => !k.before p.key) }
          .declare num okReply)

/-- R73: WITHDRAW refuses a referenced point, naming the first reference, and otherwise removes the record. -/
def Obligations.WithdrawRefusesReferencedPoint : Prop :=
  ∀ (num : Word16) (a n : Byte) (s : State), TakenFresh (requestFrame .withdraw num [a, n]) s →
    let k : Key := { address := a.toNat, number := n.toNat }
    let slotIn := fun bank : List Slot => bank.find? fun x => x.key == k
    let lineAt := fun bound : LineRecord → Option Key => allLines.find? fun i => bound s.lines.records[i] == some k
    exec (.withdraw num [a, n]) s = .next
      (if ¬ (1 ≤ a.toNat ∧ a.toNat ≤ 62 ∧ n.toNat ≤ 15) then s.onlyAnswered .withdraw num (.plain .badArgument)
       else if s.point k = none then s.onlyAnswered .withdraw num (.plain .notFound)
       else
        match slotIn s.sched.active, slotIn s.sched.shadow, lineAt LineRecord.trigger, lineAt LineRecord.mirror with
        | some x, _, _, _ => s.onlyAnswered .withdraw num { result := .referenced, extra := 0 :: be16 x.offset }
        | none, some x, _, _ => s.onlyAnswered .withdraw num { result := .referenced, extra := 1 :: be16 x.offset }
        | none, none, some i, _ => s.onlyAnswered .withdraw num { result := .referenced, extra := 2 :: be16 i.val }
        | none, none, none, some i =>
          s.onlyAnswered .withdraw num { result := .referenced, extra := 3 :: be16 i.val }
        | none, none, none, none =>
          State.answered { s.taken with points := s.points.filter fun p => p.key != k } .withdraw num okReply)

/-- R75: WATCH sets the watch mode and raises nothing. -/
def Obligations.WatchSetsMode : Prop :=
  ∀ (num : Word16) (a n w : Byte) (s : State), TakenFresh (requestFrame .watch num [a, n, w]) s → s.keysDistinct →
    let k : Key := { address := a.toNat, number := n.toNat }
    exec (.watch num [a, n, w]) s = .next
      (if ¬ (1 ≤ a.toNat ∧ a.toNat ≤ 62 ∧ n.toNat ≤ 15 ∧ w.toNat ≤ 2) then
        s.onlyAnswered .watch num (.plain .badArgument)
       else if s.point k = none then s.onlyAnswered .watch num (.plain .notFound)
       else
        State.answered
          { s.taken with points := s.points.map fun p =>
              if p.key = k then
                { p with watch := if w.toNat = 0 then .off else if w.toNat = 1 then .change else .quality }
              else p }
          .watch num okReply)

/-! ## Chapter 6: outbound messages -/

/-- R105, R106: SEND's checks in order; an accepted message joins QUEUED behind every other and takes one reservation. -/
def Obligations.SendChecksThenQueues : Prop :=
  ∀ (num : Word16) (d tag c lim : Byte) (body : List Byte) (s : State),
    TakenFresh (requestFrame .send num ([d, tag, c, lim] ++ body)) s → s.sched.mode = .run → body.length ≤ 48 →
    exec (.send num ([d, tag, c, lim] ++ body)) s = .next
      (if ¬ (1 ≤ d.toNat ∧ d.toNat ≤ 62 ∧ c.toNat ≤ 1 ∧ 1 ≤ lim.toNat ∧ lim.toNat ≤ 4 ∧ body ≠ []) then
        s.onlyAnswered .send num (.plain .badArgument)
       else if (s.entry d.toNat).state ≠ .active then s.onlyAnswered .send num (.plain .notPresent)
       else
        match s.outbound.find? fun m => m.tag == tag with
        | some m =>
          s.onlyAnswered .send num
            { result := .tagInUse, extra := [byteOf m.destination, messageStateCode m.state] }
        | none =>
          if 16 ≤ s.outbound.length then s.onlyAnswered .send num { result := .full, extra := [0] }
          else if 32 ≤ s.reports.unsent.length + s.reports.sent.length + s.reports.reservations then
            s.onlyAnswered .send num { result := .full, extra := [1] }
          else
            State.answered
              { s.taken with
                outbound := s.outbound ++
                  [{ tag := tag, destination := d.toNat, cls := if c.toNat = 0 then .normal else .urgent
                     payload := body, limit := lim.toNat, made := 0, state := .queued, onLine := false
                     gone := false }]
                reports := { s.reports with reservations := s.reports.reservations + 1 } }
              .send num okReply)

/-- R111, R114: CANCEL settles a QUEUED message CANCELLED in its reservation, and refuses any other. -/
def Obligations.CancelSettlesQueuedMessage : Prop :=
  ∀ (num : Word16) (tag : Byte) (s : State), TakenFresh (requestFrame .cancel num [tag]) s → s.tagsDistinct →
    exec (.cancel num [tag]) s = .next
      (match s.outbound.find? fun m => m.tag == tag with
       | none => s.onlyAnswered .cancel num (.plain .notFound)
       | some m =>
         match m.state with
         | .inFlight => s.onlyAnswered .cancel num (.plain .tooLate)
         | .queued =>
           State.answered
             { s.taken with
               outbound := s.outbound.filter fun x => x.tag != tag
               reports := { s.reports with
                 reservations := s.reports.reservations - 1
                 unsent := s.reports.unsent ++
                   [{ kind := .messageOutcome, level := s.reports.levelOf .messageOutcome
                      body := [tag, byteOf m.destination, messageClassCode m.cls, 3, byteOf m.made]
                      reserved := true }] } }
             .cancel num okReply)

/-! ## Chapter 7: reports and conditions -/

/-- R131, R127: ACK_REPORTS removes the named entry and those first transmitted before it; a freed place serves a waiting
OVERFLOW; a number no SENT entry carries is refused. -/
def Obligations.AckRemovesSentPrefix : Prop :=
  ∀ (num : Word16) (hi lo : Byte) (s : State), TakenFresh (requestFrame .ackReports num [hi, lo]) s →
    ((∀ e ∈ s.reports.sent, e.seq.toNat ≠ hi.toNat * 256 + lo.toNat) →
      exec (.ackReports num [hi, lo]) s = .next (s.onlyAnswered .ackReports num (.plain .badArgument))) ∧
    (∀ pre e post, s.reports.sent = pre ++ e :: post → e.seq.toNat = hi.toNat * 256 + lo.toNat →
      (∀ d ∈ pre, d.seq ≠ e.seq) →
      ∃ t : State,
        exec (.ackReports num [hi, lo]) s =
          .next (t.answered .ackReports num (.okWith [byteOf (pre.length + 1)])) ∧
        t = { s.taken with reports := t.reports, conds := t.conds } ∧
        (if 0 < s.reports.lossTally ∧ s.reports.places - (pre.length + 1) < 32 then
          t.conds = { s.conds with reportLoss := { s.conds.reportLoss with active := false } } ∧
          t.reports = { s.reports with
            sent := post, lossTally := 0
            unsent := s.reports.unsent ++
              [{ kind := .overflow, level := s.reports.levelOf .overflow, body := be16 s.reports.lossTally
                 reserved := false }] }
         else t.conds = s.conds ∧ t.reports = { s.reports with sent := post }))

/-- R125, R126, R132, R133: RESEND_REPORTS marks every SENT entry; SET_LEVEL sets a level where the kind allows it. A report
of any kind that is raised, without a reservation, at the level in force: nothing at level 0, an UNSENT POINT_CHANGED of the
same point rewritten, an entry at the tail while there is room, and in a full queue the newest entry of the lowest level below
its own displaced, or the report discarded, and one loss counted. -/
def Obligations.ResendMarksAndLevelsAreSet : Prop :=
  (∀ (num : Word16) (k l : Byte) (s : State),
    (TakenFresh (requestFrame .resendReports num []) s →
      exec (.resendReports num []) s = .next
        (State.answered
          { s.taken with reports := { s.reports with
              sent := s.reports.sent.map fun e => { e with resendDue := true } } }
          .resendReports num (.okWith [byteOf s.reports.sent.length]))) ∧
    (TakenFresh (requestFrame .setLevel num [k, l]) s →
      exec (.setLevel num [k, l]) s = .next
        (if 4 ≤ k.toNat ∧ k.toNat ≤ 21 ∧ l.toNat ≤ 3 ∧ ¬ (k.toNat = 15 ∧ l.toNat = 0) then
          State.answered
            { s.taken with reports := { s.reports with
                levels := s.reports.levels.setIfInBounds (k.toNat - 1) l.toNat } }
            .setLevel num okReply
         else s.onlyAnswered .setLevel num (.plain .badArgument)))) ∧
  ∀ (k : ReportKind) (body : List Byte) (s : State),
    let t := s.raising [(k, body)]
    ReportRaised k body s t ∧
      t = { s with reports := t.reports, conds := { s.conds with reportLoss := t.conds.reportLoss } }

/-- R141: CLEAR_CONDITIONS clears the latches of the named conditions that are not active; a malformed set changes
nothing. -/
def Obligations.ClearConditionsClearsIdleLatches : Prop :=
  ∀ (num : Word16) (set : List Byte) (s : State), set.length ≤ 6 →
    TakenFresh (requestFrame .clearConditions num set) s →
    (¬ ((∀ b ∈ set, b.toNat ≤ 5) ∧ set.Nodup) →
      exec (.clearConditions num set) s = .next (s.onlyAnswered .clearConditions num (.plain .badArgument))) ∧
    ((∀ b ∈ set, b.toNat ≤ 5) → set.Nodup →
      ∃ t : State,
        exec (.clearConditions num set) s = .next (t.answered .clearConditions num
          (.okWith (conditionNames.map fun n => flagByte (t.conds.get n).latched))) ∧
        t = { s.taken with conds := t.conds } ∧
        ∀ n, (t.conds.get n).active = (s.conds.get n).active ∧
          (t.conds.get n).latched =
            ((s.conds.get n).latched &&
              !(decide (byteOf (conditionNames.idxOf n) ∈ set) && !(s.conds.get n).active)))

/-! ## Chapter 8: local lines -/

/-- R144, R145: SET_LINE replaces the record whole for each mode, checking that a binding names a declared point; with
a line above 7, a mode above 3, fields whose length is not the mode's, or a field out of its range, it is refused and the line
stays as it was. An accepted one changes this line's record and, for an output, its pin alone, which takes the driven level.
That a flag byte must be 0 or 1, that a pin released or left undriven keeps what it shows, and that a pin already driven to the
level keeps it too, are the model's choices (logs 17, 7). -/
def Obligations.SetLineReplacesRecord : Prop :=
  (∀ (num : Word16) (line mode : Byte) (fields : List Byte) (s : State),
    TakenFresh (requestFrame .setLine num (line :: mode :: fields)) s → fields.length ≤ 7 →
    7 < line.toNat ∨ 3 < mode.toNat ∨ (mode = 0 ∧ fields ≠ []) ∨ (mode = 1 ∧ fields.length ≠ 6) ∨
      (mode = 2 ∧ fields.length ≠ 2) ∨ (mode = 3 ∧ fields.length ≠ 7) →
    exec (.setLine num (line :: mode :: fields)) s = .next (s.onlyAnswered .setLine num (.plain .badArgument))) ∧
  (∀ (num : Word16) (line : Byte) (fields : List Byte) (s : State),
    let keyOut := fun a n : Byte => a.toNat < 1 ∨ 62 < a.toNat ∨ 15 < n.toNat
    let refused := fun mode : Byte => TakenFresh (requestFrame .setLine num (line :: mode :: fields)) s →
      exec (.setLine num (line :: mode :: fields)) s = .next (s.onlyAnswered .setLine num (.plain .badArgument))
    (∀ edge filter report present a n, fields = [edge, filter, report, present, a, n] →
      2 < edge.toNat ∨ 15 < filter.toNat ∨ 1 < report.toNat ∨ 1 < present.toNat ∨ (present = 1 ∧ keyOut a n) →
      refused 1) ∧
    (∀ safe level, fields = [safe, level] → 2 < safe.toNat ∨ 1 < level.toNat → refused 2) ∧
    (∀ safe level a n byteIndex bitIndex invert, fields = [safe, level, a, n, byteIndex, bitIndex, invert] →
      2 < safe.toNat ∨ 1 < level.toNat ∨ keyOut a n ∨ 7 < bitIndex.toNat ∨ 1 < invert.toNat → refused 3)) ∧
  ∀ (num : Word16) (i : Fin 8) (s : State) (p : List Byte),
    TakenFresh (requestFrame .setLine num p) s →
    let undriven := fun r : LineRecord => (s.taken.lineTakes i r none).answered .setLine num okReply
    let driving := fun (r : LineRecord) (v : Level) => (s.taken.lineTakes i r (some v)).answered .setLine num okReply
    (p = Wire.setLineOff i → exec (.setLine num p) s = .next (undriven .off)) ∧
    (∀ e filter report, filter ≤ 15 → p = Wire.setLineInput i e filter report none →
      exec (.setLine num p) s = .next
        (undriven (.input { edge := e, filter := filter, filtered := s.lines.pins[i], edgeCount := 0
                            reportEdge := report, binding := none, pending := false, cueOnLine := false
                            differsSince := none }))) ∧
    (∀ e filter report k, filter ≤ 15 → k.valid = true → p = Wire.setLineInput i e filter report (some k) →
      exec (.setLine num p) s = .next
        (if s.point k = none then s.onlyAnswered .setLine num (.plain .notFound)
         else
          undriven (.input { edge := e, filter := filter, filtered := s.lines.pins[i], edgeCount := 0
                             reportEdge := report, binding := some k, pending := false, cueOnLine := false
                             differsSince := none }))) ∧
    (∀ safe v, p = Wire.setLineHost i safe v →
      exec (.setLine num p) s =
        .next (driving (.outputHost { safe := safe, current := v, held := v, forcedSafe := false }) v)) ∧
    (∀ safe v k byteIndex bitIndex invert, k.valid = true → byteIndex < 256 → bitIndex ≤ 7 →
      p = Wire.setLineMirror i safe v k byteIndex bitIndex invert →
      exec (.setLine num p) s = .next
        (match s.point k with
         | none => s.onlyAnswered .setLine num (.plain .notFound)
         | some q =>
           if q.length ≤ byteIndex then s.onlyAnswered .setLine num (.plain .badArgument)
           else
            let bit : Level := if (q.value.getD byteIndex 0).getLsbD bitIndex != invert then .high else .low
            let safeNow : Level := match safe with | .low => .low | .high => .high | .hold => v
            let current := if q.quality = .good then bit else safeNow
            driving (.outputMirror
              { safe := safe, current := current, held := if q.quality = .good then bit else v
                binding := k, byteIndex := byteIndex, bitIndex := bitIndex, invert := invert }) current))

/-- R151: WRITE_LINE. A pin already driven to the written level keeps what it shows, which the outside may overdrive:
the model's choice (log 7). -/
def Obligations.WriteLineDrivesHostLine : Prop :=
  ∀ (num : Word16) (b v : Byte) (s : State), TakenFresh (requestFrame .writeLine num [b, v]) s →
    (7 < b.toNat ∨ 1 < v.toNat →
      exec (.writeLine num [b, v]) s = .next (s.onlyAnswered .writeLine num (.plain .badArgument))) ∧
    (∀ i : Fin 8, b.toNat = i.val → v.toNat ≤ 1 → (∀ l, s.lines.records[i] ≠ .outputHost l) →
      exec (.writeLine num [b, v]) s = .next (s.onlyAnswered .writeLine num (.plain .wrongState))) ∧
    (∀ (i : Fin 8) l, b.toNat = i.val → v.toNat ≤ 1 → s.lines.records[i] = .outputHost l →
      let level : Level := if v.toNat = 1 then .high else .low
      exec (.writeLine num [b, v]) s = .next
        (State.answered
          { s.taken with lines :=
              { records := s.lines.records.set i
                  (.outputHost { l with current := level, held := level, forcedSafe := false })
                pins := if level = l.current then s.lines.pins else s.lines.pins.set i level } }
          .writeLine num okReply))

/-! ## Chapter 10: the link's own requests -/

/-- R173, R187: SET_LINK_RATE and RESTART are answered at once; a rate that differs from the present one, and the
reset, are only marked to take effect when the response has left (TransmitSideDecidesNext). The new rate and the reset
wait in fields of the link (log 18). -/
def Obligations.RateChangeAndRestartAwaitResponse : Prop :=
  ∀ (num : Word16) (s : State),
    (∀ r, TakenFresh (requestFrame .setLinkRate num (Wire.setLinkRate r)) s →
      exec (.setLinkRate num (Wire.setLinkRate r)) s = .next
        (if r = s.link.rate then s.onlyAnswered .setLinkRate num okReply
         else
          State.answered { s.taken with link := { s.taken.link with newRate := some r } } .setLinkRate num okReply)) ∧
    (∀ p : List Byte, p.length = 4 → TakenFresh (requestFrame .setLinkRate num p) s →
      bytesAt p 0 4 ∉ [115200, 230400, 460800, 921600] →
      exec (.setLinkRate num p) s = .next (s.onlyAnswered .setLinkRate num (.plain .badArgument))) ∧
    (TakenFresh (requestFrame .restart num []) s →
      exec (.restart num []) s = .next
        (State.answered { s.taken with link := { s.taken.link with restartDue := true } } .restart num okReply))

/-! ## Chapter 10: the events of the link, and the resets -/

/-- R175, R178: the receive assembler byte by byte, and the faults that drop a partial frame. The instant of the
inter-byte timeout, and that an event whose condition does not hold does nothing, are the model's choices (logs 27,
3). -/
def Obligations.AssemblerFollowsBytes : Prop :=
  ∀ (b : Byte) (s : State), s.inReset = false →
    (s.link.assembler = .hunting →
      exec (.linkByteReceived b) s = .next { s with link := { s.link with
        assembler := if b = 0xC3 then .assembling [] else .hunting, lastByteAt := s.now } }) ∧
    (s.link.assembler = .assembling [] →
      exec (.linkByteReceived b) s = .next
        (if 4 ≤ b.toNat ∧ b.toNat ≤ 196 then
          { s with link := { s.link with assembler := .assembling [b], lastByteAt := s.now } }
         else
          { s with link := { s.link with
              assembler := .hunting, formatTally := min 65535 (s.link.formatTally + 1) } })) ∧
    (∀ len bs, s.link.assembler = .assembling (len :: bs) →
      exec (.linkByteReceived b) s = .next { s with link := { s.link with
        assembler :=
          if bs.length + 1 = len.toNat + 2 then .complete (len :: (bs ++ [b])) else .assembling (len :: (bs ++ [b]))
        lastByteAt := s.now } }) ∧
    (∀ bs, s.link.assembler = .assembling bs →
      exec (.linkFormatError .framing) s = .next { s with link := { s.link with
        assembler := .hunting, formatTally := min 65535 (s.link.formatTally + 1) } } ∧
      exec .interByteTimeout s = .next { s with
        now := max s.now (s.link.lastByteAt + 10241)
        link := { s.link with
          assembler := .hunting, timeoutTally := min 65535 (s.link.timeoutTally + 1) } }) ∧
    (s.link.assembler = .assembling [] → b.toNat < 4 ∨ 196 < b.toNat →
      exec (.linkFormatError (.length b)) s = exec (.linkByteReceived b) s) ∧
    (s.link.assembler = .hunting → exec (.linkFormatError .framing) s = .next s ∧ exec .interByteTimeout s = .next s)

/-- R174, R176, R177, R184: a complete frame is judged by CRC, then by CLASS; a request frame as R174 builds it is valid: it
restarts the silence timer, ends HOST_SILENT, and enters the buffer or counts as an overrun. HOLD is asserted exactly while both
places of the buffer are occupied, and it is released in reset (R188). -/
def Obligations.CompleteFrameIsJudged : Prop :=
  (∀ s : State, s.hold = true ↔ s.inReset = false ∧ s.link.buffer.length = 2) ∧
  ∀ (s : State) (bs : List Byte), s.inReset = false → s.link.assembler = .complete bs →
    (crcSound bs = false →
      exec .linkFrameReceived s = .next { s with link := { s.link with
        assembler := .hunting, crcTally := min 65535 (s.link.crcTally + 1) } }) ∧
    (crcSound bs = true → bs.getD 1 0 ≠ 1 →
      exec .linkFrameReceived s = .next { s with link := { s.link with
        assembler := .hunting, formatTally := min 65535 (s.link.formatTally + 1) } }) ∧
    (∀ (code : Byte) (num : Word16) (p : List Byte), p.length ≤ 192 →
      let inner := [byteOf (p.length + 4), 1, code] ++ be16 num.toNat ++ p
      bs = inner ++ crcBytes inner →
      exec .linkFrameReceived s = .next { s with
        conds := { s.conds with hostSilent := { s.conds.hostSilent with active := false } }
        link := { s.link with
          assembler := .hunting, silenceStart := s.now
          buffer :=
            if s.link.buffer.length < 2 then s.link.buffer ++ [{ code := code, num := num, payload := p }]
            else s.link.buffer
          overrunTally :=
            if s.link.buffer.length < 2 then s.link.overrunTally else min 65535 (s.link.overrunTally + 1) } })

/-- R128, R129, R130, R132, R172, R173, R183: when the last stop bit of a frame has left TXD a waiting response is sent, and a
rate that awaited its response takes effect, discarding a partial frame without a tally; the free side takes the first due SENT
entry, or else, with room in the window, the oldest UNSENT entry of the highest level under the counter's number, or else
nothing. TXD is high at rest, and shows a frame's bytes back to back: each a low start bit, its bits from the least significant
on, and a high stop bit. That the taking of a report is a command of its own, and that the rows of a rate change or a restart
are the leaving of its response, are the model's choices (logs 5, 18), as is the clock (logs 1, 2). -/
def Obligations.TransmitSideDecidesNext : Prop :=
  (∀ (s : State) (f : LinkFrame), s.inReset = false → s.link.sending = some f →
    let left := s.leftTxd f
    let freed := { s.link with
      sending := s.link.waiting, waiting := none
      sendingSince := if s.link.waiting = none then s.link.sendingSince else left }
    let dropped := match s.link.assembler with
      | .complete bs => Assembler.complete bs
      | _ => .hunting
    (f.cls ≠ 2 → exec .linkFrameSent s = .next { s with now := left, link := freed }) ∧
    (f.cls = 2 → s.link.restartDue = false → s.link.newRate = none →
      exec .linkFrameSent s = .next { s with now := left, link := freed }) ∧
    (∀ r, f.cls = 2 → s.link.restartDue = false → s.link.newRate = some r →
      exec .linkFrameSent s = .next { s with
        now := left, link := { freed with rate := r, newRate := none, assembler := dropped } } ∧
      exec .linkRateChange s = exec .linkFrameSent s) ∧
    (f.cls = 2 → s.link.restartDue = true → exec .linkFrameSent s = exec .softReset s)) ∧
  (∀ s : State, s.inReset = false → s.link.sending = none → s.link.waiting = none →
    (∀ pre e post, s.reports.sent = pre ++ e :: post → (∀ d ∈ pre, d.resendDue = false) → e.resendDue = true →
      exec .reportTaken s = .next { s with
        reports := { s.reports with sent := pre ++ { e with resendDue := false } :: post }
        link := { s.link with
          sendingSince := s.now
          sending := some
            { cls := 3, code := byteOf (reportKindCode e.report.kind).val, num := e.seq
              payload := e.report.body } } }) ∧
    (∀ pre r post, (∀ d ∈ s.reports.sent, d.resendDue = false) → s.reports.sent.length < 8 →
      s.reports.unsent = pre ++ r :: post → (∀ x ∈ pre, x.level < r.level) → (∀ x ∈ post, x.level ≤ r.level) →
      exec .reportTaken s = .next { s with
        reports := { s.reports with
          unsent := pre ++ post
          sent := s.reports.sent ++ [{ report := r, seq := s.reports.counter, resendDue := false }]
          counter := s.reports.counter + 1 }
        link := { s.link with
          sendingSince := s.now
          sending := some
            { cls := 3, code := byteOf (reportKindCode r.kind).val, num := s.reports.counter
              payload := r.body } } }) ∧
    ((∀ d ∈ s.reports.sent, d.resendDue = false) → 8 ≤ s.reports.sent.length ∨ s.reports.unsent = [] →
      exec .reportTaken s = .next s)) ∧
  ∀ s : State,
    (s.link.sending = none → s.txd = true) ∧
    ∀ f : LinkFrame, s.link.sending = some f →
      let inner := [byteOf (f.payload.length + 4), f.cls, f.code] ++ be16 f.num.toNat ++ f.payload
      let bytes := 0xC3 :: (inner ++ crcBytes inner)
      let gone := (s.now - s.link.sendingSince) * baud s.link.rate / 10240000
      (∀ (i : Nat) (b : Byte), bytes[i]? = some b → gone / 10 = i →
        s.txd = if gone % 10 = 0 then false else if gone % 10 = 9 then true else b.getLsbD (gone % 10 - 1)) ∧
      (10 * bytes.length ≤ gone → s.txd = true)

/-- R25, R45, R68, R88, R89, R122, R135, R142, R156, R171, R188: what every reset leaves, whatever it finds; a hard
reset puts the link at 115200 baud and a soft reset keeps its rate. Held in reset, the part sends nothing, holds no
frame and drives no line. A soft reset comes when its response has left TXD (R172, R187). What the pins show after a reset, the
echo verdict that stands after it, the clock, and that assertion of the pin ends what is being sent while release gives the reset
values, are the model's choices (logs 7, 35, 2, 18, 19). -/
def Obligations.ResetTakesResetValues : Prop :=
  ∀ s : State,
    let after := fun (cause : Byte) (rate : LinkRate) (now : Nat) =>
      ({ now := now, inReset := false
         sched :=
          { mode := .config, cycle := 0, cycleStart := now, active := [], shadow := [], swapPending := false
            summary := { count := 0, first := none, firstCue := none }, skipTotal := 0, absentTally := 0
            params := { period := 1000, tolerance := 10, window := 64, rate := .k40, missLimit := 3, probes := 1
                        admission := .closed, holdTime := 0 }
            markWaiting := false, waiting := [], presented := [], configSince := now }
         txn := { record := none, stray := 0, seenThisCycle := false, lastForeign := none }
         roster :=
          { entries := Vector.replicate 62
              { state := .vacant, expected := none, seen := none, miss := 0, clash := 0, inverted := false
                lastHeard := none }
            probePointer := 1 }
         points := [], gap := { alternation := .fetch, probesStarted := 0 }, outbound := [], attention := []
         reports :=
          { unsent := [{ kind := .start, level := 3, body := [cause], reserved := false }], sent := []
            reservations := 0, counter := 0
            levels := #v[3, 3, 3, 3, 3, 3, 3, 3, 2, 2, 2, 2, 2, 2, 2, 2, 1, 1, 1, 1, 1], lossTally := 0 }
         conds :=
          { babble := ⟨false, false⟩, noEcho := ⟨false, false⟩, foreign := ⟨false, false⟩
            cycleLate := ⟨false, false⟩, reportLoss := ⟨false, false⟩, hostSilent := ⟨false, false⟩ }
         lines := { records := Vector.replicate 8 .off, pins := s.lines.pins }
         seg :=
          { activity := .active, lastTransition := now, lastEndDelimiter := now, activeSince := now
            babbleFault := false, receiver := .quiet, transmitter := .idle, echo := none, lastEcho := none }
         link :=
          { rate := rate, assembler := .hunting, lastByteAt := now, buffer := [], lastRequest := none
            waiting := none, sending := none, sendingSince := now, timeoutTally := 0, crcTally := 0, formatTally := 0
            overrunTally := 0, silenceStart := now, newRate := none, restartDue := false }
         pending := s.pending } : State)
    exec (.hardReset .power) s = .next (after 0 .b115200 s.now) ∧
    exec (.hardReset .pin) s = .next (after 1 .b115200 s.now) ∧
    (∀ f, s.inReset = false → s.link.restartDue = true → s.link.sending = some f → f.cls = 2 →
      exec .softReset s = .next (after 2 s.link.rate (s.leftTxd f))) ∧
    exec .resetPinAsserted s = .next { s with
      inReset := true
      txn := { s.txn with record := none }
      lines := { records := Vector.replicate 8 .off, pins := s.lines.pins }
      seg := { s.seg with transmitter := .idle }
      link := { s.link with
        assembler := .hunting, buffer := [], waiting := none, sending := none, newRate := none
        restartDue := false } }

/-- R152, R184: the host-silence timer runs out: HOST_SILENT becomes active and latched, and every OUTPUT_HOST line
goes to its safe level; a timer that is stopped or has run out does nothing. The clock and the pins are the model's
(logs 2, 7). -/
def Obligations.HostSilenceForcesOutputsSafe : Prop :=
  ∀ s : State, s.inReset = false →
    (s.sched.params.holdTime = 0 ∨ s.conds.hostSilent.active = true → exec .hostSilentTimeout s = .next s) ∧
    (s.sched.params.holdTime ≠ 0 → s.conds.hostSilent.active = false →
      ∃ t : State, exec .hostSilentTimeout s = .next t ∧
        t = { s with
              now := max s.now (s.link.silenceStart + s.sched.params.holdTime * 10240)
              conds := { s.conds with hostSilent := { active := true, latched := true } }
              lines := t.lines } ∧
        ∀ i : Fin 8,
          (∀ l, s.lines.records[i] = .outputHost l →
            let v : Level := match l.safe with | .low => .low | .high => .high | .hold => l.current
            t.lines.records[i] = .outputHost { l with current := v, forcedSafe := true } ∧
            t.lines.pins[i] = if v = l.current then s.lines.pins[i] else v) ∧
          ((∀ l, s.lines.records[i] ≠ .outputHost l) →
            t.lines.records[i] = s.lines.records[i] ∧ t.lines.pins[i] = s.lines.pins[i]))

/-! ## Chapter 1: the events of the cycle -/

/-- R14, R16, R17, R19, R21, R23, R39, R82: a boundary closes the ending cycle, carries out a pending swap, opens the next
cycle, ages every point, expires FOREIGN by whole cycles and sets a MARK waiting; its reports are CYCLE_LATE, SWAP_DONE, the
POINT_CHANGED of the points that go STALE and SLOTS_SKIPPED, in that order, and mirrored lines follow. The slots of a cycle
whose MARK never went out count as skipped OVERRUN at the boundary, those skipped LATE among them (log 11). That a due slot
never presented counts as an OVERRUN is the model's choice (log 12), and so is the clock (log 2). -/
def Obligations.BoundaryOpensNextCycle : Prop :=
  ∀ s : State, s.inReset = false → s.sched.mode = .run → s.keysDistinct →
    let boundary := s.sched.cycleStart + s.sched.params.period * 1024
    let now := max s.now boundary
    let overrun := s.sched.active.filter fun x =>
      (s.sched.cycle.toNat % x.divisor == x.phase) &&
        (s.sched.waiting.contains x.offset || !s.sched.presented.contains x.offset)
    let before := s.sched.summary
    let started : SkipSummary :=
      match s.sched.markWaiting, before.first with
      | true, some ⟨o, .late, _⟩ =>
        { before with first :=
            ({ before with first := before.firstCue }.plus { offset := o, reason := .overrun, instant := now }).first }
      | _, _ => before
    let closed := overrun.foldl (fun m x => m.plus { offset := x.offset, reason := .overrun, instant := now }) started
    let aged := fun p : Point =>
      { p with
        age := min 65535 (p.age + 1)
        quality := if p.quality = .good ∧ p.staleLimit < min 65535 (p.age + 1) then .stale else p.quality }
    let raised :=
      (if s.sched.markWaiting then
        [(ReportKind.cycleLate, be32 s.sched.cycle.toNat ++ be32 s.sched.params.period ++ [0])] else []) ++
      (if s.sched.swapPending then
        [(.swapDone, be32 (s.sched.cycle + 1).toNat ++ [byteOf s.sched.shadow.length])] else []) ++
      changeReports aged s.points ++
      (match closed.first with
       | some x =>
          [(.slotsSkipped,
            be32 s.sched.cycle.toNat ++ [byteOf closed.count] ++ be16 x.offset ++ [skipReasonCode x.reason])]
       | none => [])
    let conds := { s.conds with
      foreign := { s.conds.foreign with active := s.conds.foreign.active && s.txn.seenThisCycle }
      cycleLate :=
        if s.sched.markWaiting then
          { active := false, latched := s.conds.cycleLate.latched || !s.conds.cycleLate.active }
        else s.conds.cycleLate }
    ∃ t : State, exec .boundary s = .next t ∧
      t = { s with
            now := now
            sched := { s.sched with
              cycle := s.sched.cycle + 1, cycleStart := boundary
              active := if s.sched.swapPending then s.sched.shadow else s.sched.active
              swapPending := false, summary := { count := 0, first := none, firstCue := none }
              skipTotal := s.sched.skipTotal + BitVec.ofNat 32 overrun.length
              markWaiting := true, waiting := [], presented := [] }
            points := s.points.map aged
            gap := { s.gap with probesStarted := 0 }
            txn := { s.txn with seenThisCycle := false }
            reports := t.reports, conds := t.conds, lines := t.lines } ∧
      RaisedExactly raised { s with conds := conds } t ∧ MirrorsOnly s t ∧ MirrorsFollow s t

/-- R18, R20, R21, R27, R43: a waiting MARK or slot is handed over when the line permits: the unit is idle, the turnaround is
met and no babble fault is in force. A due slot joins the waiting ones in the place of its offset, or is skipped ABSENT, at its
nominal time; the first waiting slot, which is the lowest (EveryStepKeepsReferences), starts within its span and not while the
MARK waits; otherwise no start changes anything. A waiting slot is skipped LATE when its span ends, also while the MARK waits: if
the MARK never goes out, the boundary records it as OVERRUN (log 11). That a start is a command of its own, which does nothing
while its condition does not hold, that the turnaround is met on a QUIET line only, the list of presented slots and the clock
are the model's choices (logs 5, 3, 9, 12, 2). -/
def Obligations.ClaimsWaitStartAndExpire : Prop :=
  ∀ s : State, s.inReset = false →
    let placed := fun (o : Nat) (os : List Nat) => os.takeWhile (· ≤ o) ++ o :: os.dropWhile (· ≤ o)
    (s.linePermits = true ↔
      s.txn.record = none ∧ s.seg.activity = .quiet ∧
        max s.seg.lastTransition s.seg.lastEndDelimiter + s.bits 8 ≤ s.now ∧ s.seg.babbleFault = false) ∧
    (s.sched.mode ≠ .run ∨ s.sched.markWaiting = false ∨ s.linePermits = false → exec .markStart s = .next s) ∧
    (s.sched.mode = .run → s.sched.markWaiting = true → s.linePermits = true →
      exec .markStart s = .next { s with
        sched := { s.sched with markWaiting := false }
        txn := { s.txn with
          record := some
            { origin := .mark s.sched.cycle s.sched.cycleStart, kind := .mark, target := 63
              body := [0x10, 0x3F] ++ be32 s.sched.cycle.toNat ++ be16 s.sched.params.period, expected := none
              phase := .waitingLine s.now, abandonAtEnd := false } } }) ∧
    (∀ o x, slotAt s.sched.active o = some x → s.sched.cycle.toNat % x.divisor = x.phase →
      o ∉ s.sched.presented → s.sched.mode = .run →
      exec (.slotDue o) s = .next { s with
        now := max s.now (s.sched.cycleStart + o * 1024)
        sched := { s.sched with
          presented := placed o s.sched.presented
          waiting := if s.stationActive x.address then placed o s.sched.waiting else s.sched.waiting
          absentTally := if s.stationActive x.address then s.sched.absentTally else s.sched.absentTally + 1 } }) ∧
    (∀ o rest x, s.sched.waiting = o :: rest → o ∉ rest → slotAt s.sched.active o = some x → s.sched.mode = .run →
      s.sched.markWaiting = false → s.linePermits = true →
      s.now ≤ s.sched.cycleStart + (o + s.sched.params.tolerance) * 1024 →
      exec .slotStart s = .next { s with
        sched := { s.sched with waiting := rest }
        txn := { s.txn with
          record := some
            { origin := .slot o, kind := .cue, target := x.address
              body := [0x20, byteOf x.address, byteOf x.number], expected := some (.pub x.address x.number)
              phase := .waitingLine s.now, abandonAtEnd := false } } }) ∧
    (∀ o, (∀ x, slotAt s.sched.active o = some x → s.sched.cycle.toNat % x.divisor ≠ x.phase) ∨
        o ∈ s.sched.presented ∨ s.sched.mode ≠ .run →
      exec (.slotDue o) s = .next s) ∧
    (s.sched.mode ≠ .run ∨ s.sched.markWaiting = true ∨ s.linePermits = false ∨ s.sched.waiting = [] ∨
        (∃ o rest, s.sched.waiting = o :: rest ∧ s.sched.cycleStart + (o + s.sched.params.tolerance) * 1024 < s.now) →
      exec .slotStart s = .next s) ∧
    (∀ o, o ∉ s.sched.waiting → exec (.slotLate o) s = .next s) ∧
    (∀ o, o ∈ s.sched.waiting →
      exec (.slotLate o) s = .next (State.skipping o .late { s with
        now := max s.now (s.sched.cycleStart + (o + s.sched.params.tolerance) * 1024)
        sched := { s.sched with waiting := s.sched.waiting.filter fun x => x != o } }))

/-- R7, R67, R113, R121, R125, R126, R155: STOPPING ends with the transaction unit idle; SWAP_DISCARDED, the ABORTED outcomes
and STOPPED are raised in that order, into a queue with room or a full one. That the end of STOPPING is a command of its own,
which does nothing while its condition does not hold, is the model's choice (logs 3, 5). -/
def Obligations.StoppingEndsInConfig : Prop :=
  ∀ s : State, s.inReset = false → s.sched.mode = .stopping →
    (s.txn.record ≠ none → exec .stoppingEnd s = .next s) ∧
    (s.txn.record = none →
      let q := State.raising [(.stopped, be32 s.sched.cycle.toNat)]
        ((s.raising (if s.sched.swapPending then [(.swapDiscarded, [byteOf s.sched.shadow.length])] else [])).settling
          s.outbound 4 [])
      ∃ t : State, exec .stoppingEnd s = .next t ∧
        t = { s with
              sched := { s.sched with
                mode := .config, configSince := s.now, summary := { count := 0, first := none, firstCue := none }
                presented := []
                swapPending := false }
              roster := t.roster, attention := [], outbound := [], lines := t.lines
              reports := q.reports
              conds := { q.conds with foreign := { s.conds.foreign with
                active := s.conds.foreign.active &&
                  !decide (∃ f, s.txn.lastForeign = some f ∧ f + 1024000 ≤ s.now) } } } ∧
        t.roster.probePointer = s.roster.probePointer ∧
        (∀ a, 1 ≤ a → a ≤ 62 →
          t.entry a = { s.entry a with
            state := if (s.entry a).state = .barred then .barred else .vacant
            seen := if (s.entry a).state = .held then none else (s.entry a).seen
            miss := 0 }) ∧
        ∀ i : Fin 8, t.lines.pins[i] = s.lines.pins[i] ∧
          t.lines.records[i] = match s.lines.records[i] with
            | .input l => .input { l with pending := false }
            | r => r)

/-! ## Chapters 2 and 9: the transaction and the line -/

/-- R19, R28, R29, R125, R126, R157-R159, R165: the transmitter leaves IDLE when the turnaround is met on a QUIET line, and the
record enters SENDING; a MARK later than the tolerance latches CYCLE_LATE and is reported. In IDLE, SEG_TXEN is withdrawn and
SEG_TX low; in the bit time n of a frame SEG_TXEN is asserted, the transmitter is in the state that sends the frame's symbol n,
and SEG_TX shows that symbol's half-bit. That the command waits for the turnaround on a QUIET line, and the clock, are the
model's choices (logs 2, 9, 1); the states and the pins are functions of State (log 21). -/
def Obligations.TransmitterLeavesIdle : Prop :=
  (∀ s : State,
    (s.seg.transmitter = .idle → s.transmitterState = .idle ∧ s.segTxen = false ∧ s.segTx = false) ∧
    ∀ (body : List Byte) (since n : Nat) (x : Symbol), s.seg.transmitter = .sending body since →
      (symbolsOf body)[n]? = some x →
      let bit := match s.sched.params.rate with | .k40 => 256 | .k160 => 64
      since + n * bit ≤ s.now → s.now < since + (n + 1) * bit →
      s.transmitterState =
        (if n < 12 then .preamble
         else if n < 12 + 6 then .start
         else if n < 12 + 6 + 8 * body.length then .body
         else if n < 12 + 6 + 8 * body.length + 16 then .check
         else .end_) ∧
      s.segTxen = true ∧ s.segTx = levelOfHalf x (decide (since + n * bit + bit / 2 ≤ s.now))) ∧
  ∀ (s : State) (r : Record) (since : Nat), s.inReset = false → s.txn.record = some r →
    r.phase = .waitingLine since → s.seg.activity = .quiet →
    let start := max s.now (max s.seg.lastTransition s.seg.lastEndDelimiter + s.bits 8)
    let sending : State := { s with
      now := start
      txn := { s.txn with record := some { r with phase := .sending start } }
      seg := { s.seg with transmitter := .sending r.body start, echo := none } }
    (∀ cycle nominal, r.origin = .mark cycle nominal → s.sched.params.tolerance < (start - nominal) / 1024 →
      exec .transmitStart s = .next (State.raising
        [(.cycleLate, be32 cycle.toNat ++ be32 ((start - nominal) / 1024) ++ [1])]
        { sending with conds := { s.conds with cycleLate :=
            { active := false, latched := s.conds.cycleLate.latched || !s.conds.cycleLate.active } } })) ∧
    ((∀ cycle nominal, r.origin = .mark cycle nominal → (start - nominal) / 1024 ≤ s.sched.params.tolerance) →
      exec .transmitStart s = .next sending)

/-- R21, R22, R29, R34, R110, R112, R113, R119, R149, R161-R164, R166, R167: the echo and its verdict. The verdict on a frame
marked as echo is kept for the echo check, whatever it is, and no record or tally takes it. At the end of the own frame a sound
echo clears NO_ECHO and begins the answer window, or ends a MARK SENT; no start delimiter sets NO_ECHO and ends the record
ECHO_LOST; an unsound echo ends it COLLISION; after a babble fault it ends ABANDONED. Each of these three counts no miss, and the
record's owner acts as its own rule says, whatever the origin. Which verdict on the echo counts, that the part's own end
delimiter is seen though its echo was not, that a message ABORTED in STOPPING takes its attempt back first, the instants inside a
frame and the clock are the model's choices (logs 10, 34, 14, 8, 2). -/
def Obligations.EchoVerdictLeavesSending : Prop :=
  (∀ (s : State) (r : Record) (body : List Byte) (since : Nat) (v : EchoVerdict),
    s.inReset = false → s.txn.record = some r → s.seg.transmitter = .sending body since →
    v = (match s.seg.echo with
      | some (.good b _) => if b = body then .sound else .unsound
      | some _ => .unsound
      | none => if s.seg.receiver.readingEcho then .unsound else .noEcho) →
    let ended := since + (8 * body.length + 40) * s.bits 1
    let base : State := { s with
      now := max s.now ended
      seg := { s.seg with
        transmitter := .idle, echo := none, lastEcho := some v
        lastEndDelimiter := max s.seg.lastEndDelimiter ended }
      conds := match v with
        | .sound => { s.conds with noEcho := { s.conds.noEcho with active := false } }
        | .noEcho =>
          { s.conds with noEcho :=
              { active := true, latched := s.conds.noEcho.latched || !s.conds.noEcho.active } }
        | .unsound => s.conds }
    (v = .sound → r.abandonAtEnd = false → r.kind ≠ .mark →
      exec .echoVerdict s = .next { base with
        txn := { s.txn with record := some { r with phase := .awaiting (ended + s.bits s.sched.params.window) } } }) ∧
    (∀ cycle nominal, r.origin = .mark cycle nominal → r.kind = .mark →
      exec .echoVerdict s = .next base.discarded) ∧
    (v ≠ .sound ∨ r.abandonAtEnd = true → s.tagsDistinct →
      let reason : SkipReason := if r.abandonAtEnd then .abandoned else if v = .noEcho then .echoLost else .collision
      exec .echoVerdict s = .next (base.ownerActs r (some reason)).discarded)) ∧
  ∀ (s : State) (f : FrameInProgress) (inverted : Bool), s.inReset = false →
    s.seg.receiver = .body f inverted [] [] [] → f.echo = true →
    let hear := fun xs : List Symbol => exec (.segmentFrameReceived (polarised inverted xs)) s
    (∀ body, 2 ≤ body.length → body.length ≤ 64 →
      hear (bodySymbols body) = .next ((s.frameEnded f (body.length + 2)).echoNoted (.good body inverted))) ∧
    (∀ bs : List Byte, bs.length ≤ 66 → bs.length < 4 ∨ crcSound bs = false →
      hear (bs.flatMap byteSymbols ++ endDelimiter) =
        .next ((s.frameEnded f bs.length).echoNoted (if bs.length < 4 then .runt else .checkError))) ∧
    (∀ (bs : List Byte) (b : Byte) (k : Nat) (x : Symbol), bs.length ≤ 66 → k ≤ 7 → x = .vPlus ∨ k ≠ 0 ∧ x = .vMinus →
      let xs := bs.flatMap byteSymbols ++ (byteSymbols b).take k ++ [x]
      hear xs = .next ((s.frameGivenUpAfter f (polarised inverted xs)).echoNoted .broken)) ∧
    (∀ (bs : List Byte) (k : Nat) (x : Symbol), bs.length ≤ 66 → 1 ≤ k → k ≤ 5 → endDelimiter[k]? ≠ some x →
      let xs := bs.flatMap byteSymbols ++ endDelimiter.take k ++ [x]
      hear xs = .next ((s.frameGivenUpAfter f (polarised inverted xs)).echoNoted .broken)) ∧
    ∀ bs : List Byte, bs.length = 67 →
      let last := max s.seg.lastTransition (f.start + (f.count + 535) * s.bits 1 + s.bits 1 / 2)
      hear (bs.flatMap byteSymbols) = .next ((s.frameGivenUp f 536 last).echoNoted .tooLong)

/-- R28, R30-R32, R35, R55, R57-R59, R109, R110, R113, R119, R149, R163, R164: the answer window passes and the record ends MISS:
one miss against an ACTIVE station, which is lost with all the consequences at the miss limit, and then the record's owner acts;
a record 1024 bit times in WAITING_LINE ends ABANDONED, which counts no miss. A frame that fails a check of R32 ends a record in
RECEIVING WRONG, after any foreign sighting (log 13), and a frame that is RUNT, CHECK_ERROR, BROKEN or TOO_LONG ends it GARBLED;
each counts as a miss does, at the miss limit too, but for the clash that a garbled answer to ROLL is. That a message ABORTED in
STOPPING takes its attempt back after a line fault, that the DEVICE_LOST of an ACTIVE entry without a seen identity, which no run
reaches, carries zeros for it, the clock and the instants inside a frame are the model's (logs 14, 25, 2, 8). -/
def Obligations.UnansweredRecordsEnd : Prop :=
  (∀ (s : State) (r : Record), s.inReset = false → s.txn.record = some r → s.tagsDistinct →
    (∀ deadline, r.phase = .awaiting deadline →
      ∃ w, exec .answerWindowExpired s = .next w ∧ Unanswered r { s with now := max s.now deadline } w) ∧
    (∀ since, r.phase = .waitingLine since →
      exec .waitingLineTimeout s =
        .next (State.ownerActs r (some .abandoned) { s with now := max s.now (since + s.bits 1024) }).discarded)) ∧
  ∀ (s : State) (r : Record) (f : FrameInProgress) (inverted : Bool), Receiving r f inverted s → s.tagsDistinct →
    let hear := fun xs : List Symbol => exec (.segmentFrameReceived (polarised inverted xs)) s
    (∀ body, 2 ≤ body.length → body.length ≤ 64 → (∀ e, r.expected = some e → ¬ e.metBy body) →
      ∃ w, hear (bodySymbols body) = .next w ∧ Unanswered r ((s.frameEnded f (body.length + 2)).sighting body) w) ∧
    (∀ bs : List Byte, bs.length ≤ 66 → bs.length < 4 ∨ crcSound bs = false →
      ∃ w, hear (bs.flatMap byteSymbols ++ endDelimiter) = .next w ∧ GarbledEnds r (s.frameEnded f bs.length) w) ∧
    (∀ (bs : List Byte) (b : Byte) (k : Nat) (x : Symbol), bs.length ≤ 66 → k ≤ 7 → x = .vPlus ∨ k ≠ 0 ∧ x = .vMinus →
      let xs := bs.flatMap byteSymbols ++ (byteSymbols b).take k ++ [x]
      ∃ w, hear xs = .next w ∧ GarbledEnds r (s.frameGivenUpAfter f (polarised inverted xs)) w) ∧
    (∀ (bs : List Byte) (k : Nat) (x : Symbol), bs.length ≤ 66 → 1 ≤ k → k ≤ 5 → endDelimiter[k]? ≠ some x →
      let xs := bs.flatMap byteSymbols ++ endDelimiter.take k ++ [x]
      ∃ w, hear xs = .next w ∧ GarbledEnds r (s.frameGivenUpAfter f (polarised inverted xs)) w) ∧
    ∀ bs : List Byte, bs.length = 67 →
      let last := max s.seg.lastTransition (f.start + (f.count + 535) * s.bits 1 + s.bits 1 / 2)
      ∃ w, hear (bs.flatMap byteSymbols) = .next w ∧ GarbledEnds r (s.frameGivenUp f 536 last) w

/-- R30, R31, R38, R158, R160-R163, R166: a first transition begins a frame, marked as echo while the part sends, and moves an
AWAITING record to RECEIVING if it falls at or before the deadline; a transition while a frame is read or drained only keeps the
line ACTIVE; the preamble, though its first bits be lost, and the start delimiter bring the receiver to BODY in either polarity;
4 bit times without a transition make
the line QUIET, and a frame in LOCKING or SEEKING is then GARBLED and one in BODY BROKEN; the turnaround is met in its time; a
start delimiter not completed in 32 bit times is GARBLED. Such a verdict ends a record in RECEIVING as GARBLED, makes a frame
that no record awaits stray, and goes to the echo check for an echo. That a record whose deadline has passed stays until
ANSWER_WINDOW_EXPIRED and takes no frame, which verdict on an echo counts, the zeros for an absent identity in DEVICE_LOST, the instants at which
symbols, quiet and turnaround fall, and that an event whose condition does not hold does nothing, are the model's (logs 16, 10,
25, 2, 8, 9, 3). -/
def Obligations.LineAndReceiverFollowTransitions : Prop :=
  ∀ s : State, s.inReset = false →
    (s.seg.receiver = .quiet →
      exec .firstTransition s = .next { s with
        seg := { s.seg with
          activity := .active, lastTransition := s.now
          activeSince := if s.seg.activity = .quiet then s.now else s.seg.activeSince
          receiver := .locking
            { start := s.now, echo := s.seg.transmitter.busy, count := 0, lastHalf := false
              lastTransition := s.now } 0 none }
        txn := match s.txn.record with
          | some r =>
            match r.phase with
            | .awaiting deadline =>
              if s.now ≤ deadline then { s.txn with record := some { r with phase := .receiving } } else s.txn
            | _ => s.txn
          | none => s.txn }) ∧
    (s.seg.receiver ≠ .quiet →
      exec .firstTransition s = .next { s with
        seg := { s.seg with
          activity := .active, lastTransition := s.now
          activeSince := if s.seg.activity = .quiet then s.now else s.seg.activeSince } }) ∧
    (∀ (f : FrameInProgress) (inverted : Bool) (lost : List Symbol) (n : Nat), s.seg.receiver = .locking f 0 none →
      (∀ x ∈ lost, x = .vPlus ∨ x = .vMinus) → 4 ≤ n → n ≤ 12 → f.count + lost.length + n + 6 ≤ 32 →
      let xs := polarised inverted (lost ++ preambleSymbols.drop (12 - n) ++ startDelimiter)
      let g := f.afterSymbols (s.bits 1) xs
      g.start = f.start ∧ g.echo = f.echo ∧ g.count = f.count + lost.length + n + 6 ∧
      exec (.startDelimiterCompleted xs) s = .next { s with
        now := max s.now (f.start + g.count * s.bits 1)
        seg := { s.seg with
          receiver := .body g inverted [] [] [], lastTransition := max s.seg.lastTransition g.lastTransition } }) ∧
    (s.seg.activity = .active → s.seg.receiver.frame = none →
      exec .lineQuiet s = .next { s with
        now := max s.now (s.seg.lastTransition + s.bits 4)
        seg := { s.seg with
          activity := .quiet, receiver := .quiet
          lastTransition := max s.now (s.seg.lastTransition + s.bits 4) - s.bits 4 } }) ∧
    (∀ f, s.seg.activity = .active → s.seg.receiver.frame = some f →
      let v := match s.seg.receiver with
        | .body _ _ _ _ _ => Verdict.broken
        | _ => .garbled
      ∃ w, exec .lineQuiet s = .next w ∧
        UnsoundVerdict f v { s with
          now := max s.now (s.seg.lastTransition + s.bits 4)
          seg := { s.seg with
            activity := .quiet, receiver := .quiet
            lastTransition := max s.now (s.seg.lastTransition + s.bits 4) - s.bits 4 } } w) ∧
    (s.seg.activity = .quiet →
      exec .turnaroundMet s = .next { s with
        now := max s.now (max s.seg.lastTransition s.seg.lastEndDelimiter + s.bits 8) }) ∧
    (∀ f, (∃ clean last, s.seg.receiver = .locking f clean last) ∨ (∃ last read, s.seg.receiver = .seeking f last read) →
      ∃ w, exec .startDelimiterTimeout s = .next w ∧
        UnsoundVerdict f .garbled { s with
          now := max s.now (f.start + s.bits 32)
          seg := { s.seg with receiver := .drain, lastTransition := max s.seg.lastTransition f.lastTransition } } w) ∧
    ((∀ f clean last, s.seg.receiver ≠ .locking f clean last) → (∀ f last read, s.seg.receiver ≠ .seeking f last read) →
      exec .startDelimiterTimeout s = .next s)

/-- R27, R31, R32, R35, R49-R57, R79-R81, R83-R86, R108, R117, R119, R125, R126, R153, R164, R196: the answer a record awaits, received
whole and sound in either polarity. A PUB of the declared length is stored GOOD in RUN and one of another length makes the point
BAD_LENGTH; POINT_CHANGED is raised as the watch mode asks and the mirrored lines follow. A PUB for a point withdrawn meanwhile,
or from a publisher that has left ACTIVE, is discarded: the cache, the reports of points and the mirrored lines stay. A NOTE fills the FETCH's reservation,
or releases it when empty, and a REPLY ends its message DELIVERED. The identity in an ANSWER to ROLL is a duplicate, joins,
rejoins or is held. The station's misses are cleared and it is last heard now, its polarity is taken and its attention flag is
honoured. The other three flag bits, and bits 7 and 6 of the address byte, are ignored, whatever they hold. That a CUE in flight is a slot's or a trigger's is the law of R27 (EveryStepKeepsOutboundQueue). The instant at which the
frame ends is counted from its symbols (log 8). -/
def Obligations.PubAnswerIsStored : Prop :=
  ∀ (s : State) (r : Record) (f : FrameInProgress) (inverted : Bool), Receiving r f inverted s →
    1 ≤ r.target → r.target ≤ 62 → s.keysDistinct → s.tagsDistinct →
    let a := r.target
    let hear := fun body : List Byte => exec (.segmentFrameReceived (polarised inverted (bodySymbols body))) s
    ∀ flags top : Nat, flags < 8 → top < 4 →
    let flag := fun (kind : Nat) (attention : Bool) => byteOf (16 * kind + 2 * flags + if attention then 1 else 0)
    let address := byteOf (64 * top + a)
    (∀ n attention status value p, s.RecordLaw → r.kind = .cue → r.expected = some (.pub a n) → n ≤ 15 → s.stationActive a = true →
      s.point { address := a, number := n } = some p → 1 ≤ value.length → value.length ≤ 32 →
      let u := (s.frameEnded f (value.length + 6)).heardFrom a inverted
      let store := fun q : Point =>
        if q.key ≠ p.key then q
        else if value.length = p.length then
          { q with value := value, status := status, age := 0, updates := q.updates + 1
                   lastUpdate := some s.sched.cycle, quality := if s.sched.mode = .run then .good else q.quality }
        else if s.sched.mode = .run then { q with quality := .badLength }
        else q
      ∃ t : State,
        hear ([flag 3 attention, address, byteOf n, status] ++ value) =
          .next ((t.attending a attention).ownerActs r none).discarded ∧
        t = { u with
              points := s.points.map store, reports := t.reports
              conds := { u.conds with reportLoss := t.conds.reportLoss }, lines := t.lines } ∧
        MirrorsOnly u t ∧ MirrorsFollow u t ∧
        (changeReports store [p] = [] → t.reports = u.reports ∧ t.conds = u.conds) ∧
        ∀ x, changeReports store [p] = [x] → ReportRaised x.1 x.2 u t) ∧
    (∀ n attention status value, s.RecordLaw → r.kind = .cue → r.expected = some (.pub a n) → n ≤ 15 →
      s.point { address := a, number := n } = none ∨ s.stationActive a = false → 1 ≤ value.length → value.length ≤ 32 →
      hear ([flag 3 attention, address, byteOf n, status] ++ value) = .next
        ((((s.frameEnded f (value.length + 6)).heardFrom a inverted).attending a attention).ownerActs r none).discarded) ∧
    (∀ attention payload, r.origin = .fetch → r.kind = .fetch → r.expected = some (.note a) → payload.length ≤ 48 →
      let u := ((s.frameEnded f (payload.length + 4)).heardFrom a inverted).attending a attention
      hear ([flag 7 attention, address] ++ payload) = .next (State.discarded
        (if payload = [] then u.releasing
         else { u with reports := { u.reports with
           reservations := u.reports.reservations - 1
           unsent := u.reports.unsent ++
             [{ kind := .note, level := u.reports.levelOf .note, body := byteOf a :: payload, reserved := true }] } }))) ∧
    (∀ m attention result payload, r.origin = .outbound m.tag → r.kind = .send → r.expected = some (.reply a m.tag) →
      m ∈ s.outbound → payload.length ≤ 47 →
      let u := ((s.frameEnded f (payload.length + 6)).heardFrom a inverted).attending a attention
      hear ([flag 9 attention, address, m.tag, result] ++ payload) =
        .next (u.settling [m] 0 (result :: payload)).discarded) ∧
    ∀ attention i, r.origin = .probe → r.kind = .roll → r.expected = some (.answer a) →
      let u := s.frameEnded f 12
      let e := s.entry a
      let carries := fun b => decide (b ≠ a ∧ ((s.entry b).state = .active ∨ (s.entry b).state = .held) ∧
        (s.entry b).seen = some i)
      let ends := fun t : State =>
        (.next ((t.turning a inverted).attending a attention).discarded : Host.Outcome State Fault Refusal)
      let answer := hear ([flag 5 attention, address] ++ identityBytes i)
      (e.state ≠ .vacant → e.state ≠ .lost → answer = ends u) ∧
      (e.state = .vacant ∨ e.state = .lost →
        (∀ b, stationAddresses.find? carries = some b →
          answer = ends (u.raising [(.duplicateIdentity,
            [byteOf a, byteOf b, rosterStateCode (s.entry b).state] ++ identityBytes i)])) ∧
        (stationAddresses.find? carries = none →
          let joins := e.seen = some i ∨ e.expected = some i ∨ (e.expected = none ∧ s.sched.params.admission = .opened)
          (¬ joins →
            answer = ends ((u.setEntry a { e with state := .held, seen := some i }).raising [(.deviceHeld,
              [byteOf a] ++ identityBytes i ++ [if e.expected = none then 0 else 1] ++ optIdentityBytes e.expected)])) ∧
          (joins →
            let wakes := fun p : Point =>
              if s.sched.mode = .run ∧ p.key.address = a ∧ p.quality = .noSource then { p with quality := .never } else p
            ∃ t : State, answer = ends t ∧
              t = { u with
                    roster := (u.setEntry a
                      { e with state := .active, seen := some i, miss := 0, clash := 0
                               lastHeard := some s.sched.cycle }).roster
                    points := s.points.map wakes, reports := t.reports, conds := t.conds, lines := t.lines } ∧
              RaisedExactly (changeReports wakes s.points ++ [(.deviceJoined,
                [byteOf a] ++ identityBytes i ++ [flagByte (decide (e.seen = some i)), 0])]) u t ∧
              MirrorsOnly u t ∧ MirrorsFollow u t)))

/-- R34, R38, R40, R113, R125, R126, R139, R168, R169: a babble fault is declared after 1024 bit times of activity and ends after 32 of
quiet, each with its report; a record in SENDING is marked to end ABANDONED, and one in WAITING_LINE, AWAITING or RECEIVING ends
so at once. A frame that no record awaits, or that came after its deadline (log 16), is stray: it is counted, and a GOOD one of a kind that only a master sends is foreign
traffic. FOREIGN expires after 100 ms outside RUN. The reports are raised into a queue with room or a full one. That a message
ABORTED in STOPPING takes its attempt back after the fault, the clock, the instants inside a frame, and that an event whose
condition does not hold does nothing, are the model's choices (logs 14, 2, 8, 3). -/
def Obligations.BabbleAndForeignFollowTime : Prop :=
  (∀ s : State, s.inReset = false →
    (s.seg.activity = .active → s.seg.babbleFault = false →
      let u : State := State.raising [(.lineFault, [0])] { s with
        now := max s.now (s.seg.activeSince + s.bits 1024)
        seg := { s.seg with babbleFault := true }
        conds := { s.conds with babble :=
          { active := true, latched := s.conds.babble.latched || !s.conds.babble.active } } }
      ((∀ r, s.txn.record = some r → ∃ since, r.phase = .sending since) →
        exec .babbleDetected s = .next { u with
          txn := { s.txn with record := s.txn.record.map fun r => { r with abandonAtEnd := true } } }) ∧
      (∀ r, s.txn.record = some r → (∀ since, r.phase ≠ .sending since) → s.tagsDistinct →
        exec .babbleDetected s = .next (u.ownerActs r (some .abandoned)).discarded)) ∧
    (s.seg.babbleFault = true → s.seg.activity = .quiet →
      exec .babbleEnd s = .next (State.raising [(.lineRestored, [])] { s with
        now := max s.now (s.seg.lastTransition + s.bits 32)
        seg := { s.seg with babbleFault := false }
        conds := { s.conds with babble := { s.conds.babble with active := false } } })) ∧
    (∀ last, s.txn.lastForeign = some last → s.sched.mode ≠ .run → s.conds.foreign.active = true →
      exec .foreignTimeExpiry s = .next { s with
        now := max s.now (last + 1024000)
        conds := { s.conds with foreign := { s.conds.foreign with active := false } } }) ∧
    (s.sched.mode = .run → exec .foreignTimeExpiry s = .next s)) ∧
  ∀ (s : State) (f : FrameInProgress) (inverted : Bool), s.inReset = false →
    s.seg.receiver = .body f inverted [] [] [] → f.echo = false →
    (∀ r, s.txn.record = some r → r.awaitsNone s.now) →
    let stray := fun u : State => { u with txn := { u.txn with stray := u.txn.stray + 1 } }
    (∀ body, 2 ≤ body.length → body.length ≤ 64 →
      exec (.segmentFrameReceived (polarised inverted (bodySymbols body))) s =
        .next ((stray (s.frameEnded f (body.length + 2))).sighting body)) ∧
    (∀ bs : List Byte, bs.length ≤ 66 → bs.length < 4 ∨ crcSound bs = false →
      exec (.segmentFrameReceived (polarised inverted (bs.flatMap byteSymbols ++ endDelimiter))) s =
        .next (stray (s.frameEnded f bs.length)))

/-! ## Chapter 5: gap work -/

/-- R41, R48, R90-R100, R103, R107, R118, R150: outside an opportunity the arbiter starts nothing; in one it starts the first candidate
that is eligible and fits: the lowest pending trigger, then the URGENT head, then FETCH or the NORMAL head by the alternation,
then a ROLL. A candidate that does not fit is passed over for the next, a pending trigger whose station is not ACTIVE is dropped
on the way, and when none fits nothing starts. The opportunity, the horizon and the test of fit are as R90-R92 give them, and the
probe candidate is the first VACANT or LOST entry at or after the probe pointer, wrapping from 62 to 1 (R48). That the turnaround
is met on a QUIET line only, that the
arbiter's consideration is a command of its own, and that a slot whose SLOT_DUE has not been taken still lies ahead, are the
model's choices (logs 9, 5, 12). -/
def Obligations.GapStartsFirstCandidate : Prop :=
  ∀ s : State, s.inReset = false →
    let record := fun (o : Origin) (k : FrameKind) (target : Nat) (body : List Byte) (e : Expected) =>
      { s.txn with
        record := some
          { origin := o, kind := k, target := target, body := body, expected := some e
            phase := .waitingLine s.now, abandonAtEnd := false } }
    let send := fun m : Message =>
      record (.outbound m.tag) .send m.destination ([0x80, byteOf m.destination, m.tag] ++ m.payload)
        (.reply m.destination m.tag)
    let begun := fun m : Message => { m with state := .inFlight, made := m.made + 1, onLine := true }
    let nominal := fun x : Slot => s.sched.cycleStart + x.offset * 1024
    let ahead := fun x : Slot => decide (s.sched.cycle.toNat % x.divisor = x.phase ∧
      (s.now < nominal x ∨ x.offset ∉ s.sched.presented))
    (s.opportunity = true ↔
      s.sched.mode = .run ∧ s.txn.record = none ∧ s.seg.activity = .quiet ∧
        max s.seg.lastTransition s.seg.lastEndDelimiter + s.bits 8 ≤ s.now ∧ s.seg.babbleFault = false ∧
        s.sched.markWaiting = false ∧ s.sched.waiting = []) ∧
    ((s.sched.active.map (·.offset)).Pairwise (· < ·) →
      s.horizon = ((s.sched.active.filter ahead).map nominal).foldr min
        (s.sched.cycleStart + s.sched.params.period * 1024)) ∧
    (∀ a b, s.fits a b = true ↔
      let bitTimes := 8 + (8 * a + 40) + s.sched.params.window + 32 + (8 * b + 40)
      let perTick := match s.sched.params.rate with | .k40 => 4 | .k160 => 16
      (bitTimes + perTick - 1) / perTick ≤ (s.horizon - s.now) / 1024) ∧
    (1 ≤ s.roster.probePointer → s.roster.probePointer ≤ 62 →
      let pointer := s.roster.probePointer
      let probed := fun a : Nat =>
        1 ≤ a ∧ a ≤ 62 ∧ ((s.entry a).state = .vacant ∨ (s.entry a).state = .lost)
      let sooner := fun b a : Nat => if pointer ≤ a then pointer ≤ b ∧ b < a else pointer ≤ b ∨ b < a
      (∀ a, s.probeCandidate = some a ↔ probed a ∧ ∀ b, probed b → ¬ sooner b a) ∧
      (s.probeCandidate = none ↔ ∀ a, ¬ probed a)) ∧
    (s.opportunity = false → exec .gapConsideration s = .next s) ∧
    (∀ (i : Fin 8) l k, s.opportunity = true → (∀ j < i, s.triggerPassed j) → s.lines.records[i] = .input l →
      l.pending = true → l.binding = some k →
      (∀ p, s.stationActive k.address = true → s.point k = some p → s.fits 3 (4 + p.length) = true →
        exec .gapConsideration s = .next { s with
          txn := record (.trigger i) .cue k.address [0x20, byteOf k.address, byteOf k.number]
            (.pub k.address k.number)
          lines := { s.lines with records := s.lines.records.set i (.input { l with cueOnLine := true }) } }) ∧
      (s.stationActive k.address = false →
        exec .gapConsideration s = exec .gapConsideration (State.raising
          [(.triggerDropped, [byteOf i.val, byteOf k.address, byteOf k.number, 0])]
          { s with lines := { s.lines with records := s.lines.records.set i (.input { l with pending := false }) } }))) ∧
    (s.opportunity = true → (∀ j, s.triggerPassed j) → s.tagsDistinct →
      (∀ pre m post, s.offers pre m post → m.cls = .urgent → s.fits (3 + m.payload.length) 51 = true →
        exec .gapConsideration s = .next { s with txn := send m, outbound := pre ++ begun m :: post }) ∧
      (s.messagePassed .urgent →
        (∀ pre m post, s.offers pre m post → m.cls = .normal → s.fits (3 + m.payload.length) 51 = true →
          s.gap.alternation = .normal ∨ s.fetchPassed →
          exec .gapConsideration s = .next { s with
            txn := send m, outbound := pre ++ begun m :: post, gap := { s.gap with alternation := .fetch } }) ∧
        (∀ a rest, s.attention = a :: rest → s.canReserve = true → s.fits 2 50 = true →
          s.gap.alternation = .fetch ∨ s.messagePassed .normal →
          exec .gapConsideration s = .next { s with
            txn := record .fetch .fetch a [0x60, byteOf a] (.note a)
            attention := rest
            reports := { s.reports with reservations := s.reports.reservations + 1 }
            gap := { s.gap with alternation := .normal } }) ∧
        (s.messagePassed .normal → s.fetchPassed →
          (∀ a, s.probeCandidate = some a → s.gap.probesStarted < s.sched.params.probes → s.fits 2 10 = true →
            exec .gapConsideration s = .next { s with
              txn := record .probe .roll a [0x40, byteOf a] (.answer a)
              gap := { s.gap with probesStarted := s.gap.probesStarted + 1 }
              roster := { s.roster with probePointer := if a = 62 then 1 else a + 1 } }) ∧
          (s.probeCandidate = none ∨ s.sched.params.probes ≤ s.gap.probesStarted ∨ s.fits 2 10 = false →
            exec .gapConsideration s = .next s))))

/-! ## Chapter 8: the events of the lines -/

/-- R125, R126, R146-R148: a pin's change starts the filter wait, or with filter 0 changes the filtered level at once; a wait that
runs out changes it, also when the pin changes at the very instant at which it ends; a return before that leaves no trace; a
matching edge counts, is reported with its stamp, and in RUN sets the trigger of a bound line. On a line that is no INPUT only
the pin itself follows the outside.
What an undriven or overdriven pin shows, the clock, and that an event whose condition does not hold does nothing, are the
model's choices (logs 7, 2, 3). -/
def Obligations.EdgesAreFilteredCountedAndReported : Prop :=
  (∀ (i : Fin 8) (v : Level) (s : State), s.inReset = false → (∀ l, s.lines.records[i] ≠ .input l) →
    exec (.localLinePinChange i v) s = .next { s with lines := { s.lines with pins := s.lines.pins.set i v } } ∧
    exec (.inputFilterExpired i) s = .next s) ∧
  ∀ (i : Fin 8) (v : Level) (s : State) (l : InputLine), s.inReset = false → s.lines.records[i] = .input l →
    let stamp := fun (now : Nat) => match s.sched.mode with
      | .run => [0] ++ be32 s.sched.cycle.toNat ++
          be16 (min ((now - s.sched.cycleStart) / 1024) (s.sched.params.period - 1))
      | .stopping => [0] ++ be32 s.sched.cycle.toNat ++ be16 (min ((now - s.sched.cycleStart) / 1024) 65535)
      | .config => [1] ++ be32 ((now - s.sched.configSince) / 1024) ++ be16 0
    let counted := fun (pins : Vector Level 8) (w : Level) (now : Nat) =>
      let edge := if w = .high then EdgeSetting.rise else .fall
      let matching := l.edge = .both ∨ l.edge = edge
      State.raising
        (if matching ∧ l.reportEdge = true then
          [(.lineEdge, [byteOf i.val, if w = .high then 0 else 1] ++ stamp now)] else [])
        { s with
          now := now
          lines :=
            { records := s.lines.records.set i (.input
                { l with
                  filtered := w, differsSince := none
                  edgeCount := if matching then l.edgeCount + 1 else l.edgeCount
                  pending := l.pending || decide (matching ∧ s.sched.mode = .run ∧ l.binding ≠ none) })
              pins := pins } }
    (v = s.lines.pins[i] → exec (.localLinePinChange i v) s = .next s) ∧
    (v ≠ s.lines.pins[i] → v = l.filtered → (∀ since, l.differsSince = some since → s.now < since + l.filter * 1024) →
      exec (.localLinePinChange i v) s = .next { s with lines :=
        { records := s.lines.records.set i (.input { l with differsSince := none }), pins := s.lines.pins.set i v } }) ∧
    (∀ since, v ≠ s.lines.pins[i] → v = l.filtered → l.differsSince = some since → since + l.filter * 1024 ≤ s.now →
      l.filter ≠ 0 →
      exec (.localLinePinChange i v) s =
        let t := counted s.lines.pins s.lines.pins[i] s.now
        .next { t with lines :=
          { records := t.lines.records.set i
              (match t.lines.records[i] with
               | .input m => .input { m with differsSince := some s.now }
               | r => r)
            pins := s.lines.pins.set i v } }) ∧
    (v ≠ s.lines.pins[i] → v ≠ l.filtered → l.filter ≠ 0 →
      exec (.localLinePinChange i v) s = .next { s with lines :=
        { records := s.lines.records.set i (.input { l with differsSince := some s.now })
          pins := s.lines.pins.set i v } }) ∧
    (v ≠ s.lines.pins[i] → v ≠ l.filtered → l.filter = 0 →
      exec (.localLinePinChange i v) s = .next (counted (s.lines.pins.set i v) v s.now)) ∧
    (∀ since, l.differsSince = some since → s.lines.pins[i] ≠ l.filtered →
      exec (.inputFilterExpired i) s =
        .next (counted s.lines.pins s.lines.pins[i] (max s.now (since + l.filter * 1024)))) ∧
    (l.differsSince = none → exec (.inputFilterExpired i) s = .next s)

/-! ## Headline results -/

/-- R157-R159, R161-R164: every frame sent as R158 gives is decoded GOOD with its own body at its last symbol, in
either polarity. Symbols are handed over as a list (log 8). -/
def Obligations.SentFrameIsDecodedGood : Prop :=
  ∀ (body : List Byte) (bit : Nat) (f : FrameInProgress), 2 ≤ body.length → body.length ≤ 64 → f.count = 0 →
    (∃ g, readSymbols bit (.locking f 0 none) (symbolsOf body) = .verdict g (.good body false) true ∧
      g.start = f.start ∧ g.echo = f.echo ∧ g.count = 8 * body.length + 40) ∧
    (∃ g, readSymbols bit (.locking f 0 none) ((symbolsOf body).map symbolInverse) =
        .verdict g (.good body true) true ∧
      g.start = f.start ∧ g.echo = f.echo ∧ g.count = 8 * body.length + 40)

/-- R124, R130: every step keeps the law of the report queue's places. -/
def Obligations.EveryStepKeepsReportPlaces : Prop :=
  ∀ s t : State, s.ReportPlacesLaw → step s = .next t → t.ReportPlacesLaw

/-- R26, R71, R77: every step keeps the laws of CONFIG and of point quality, together. -/
def Obligations.EveryStepKeepsQualities : Prop :=
  ∀ s t : State, s.ConfigLaw → s.QualityLaw → step s = .next t → t.ConfigLaw ∧ t.QualityLaw

/-- R48, R50, R116: every step keeps the laws of identities, of the attention list and of the probe pointer. -/
def Obligations.EveryStepKeepsIdentities : Prop :=
  ∀ s t : State, s.IdentityLaw → step s = .next t → t.IdentityLaw

/-- R27, R103, R107, R149: every step keeps the outbound queue's law, and with it the law of the record in flight. -/
def Obligations.EveryStepKeepsOutboundQueue : Prop :=
  ∀ s t : State, s.OutboundLaw → step s = .next t → t.OutboundLaw ∧ (s.RecordLaw → t.RecordLaw)

/-- R126, R138, R139, R168: every step keeps the conditions' law. -/
def Obligations.EveryStepKeepsConditions : Prop :=
  ∀ s t : State, s.ConditionLaw → step s = .next t → t.ConditionLaw

/-- R8, R20, R70, R143: every step keeps banks lawful and every slot and binding naming a declared point, and it keeps the
waiting slots due slots of the active bank in ascending order. -/
def Obligations.EveryStepKeepsReferences : Prop :=
  ∀ s t : State, step s = .next t → (s.ReferenceLaw → t.ReferenceLaw) ∧ (s.WaitingLaw → t.WaitingLaw)

/-- R177, R178, R183: every step keeps the link's law. -/
def Obligations.EveryStepKeepsLink : Prop :=
  ∀ s t : State, s.LinkLaw → step s = .next t → t.LinkLaw

/-- The state after reset keeps every law. -/
def Obligations.ResetStateIsLawful : Prop :=
  State.reset.ReportPlacesLaw ∧ State.reset.ConfigLaw ∧ State.reset.QualityLaw ∧ State.reset.IdentityLaw ∧
    State.reset.OutboundLaw ∧ State.reset.RecordLaw ∧ State.reset.ConditionLaw ∧ State.reset.ReferenceLaw ∧
    State.reset.WaitingLaw ∧ State.reset.LinkLaw
end

