-- ==== Sys2Proof/Laws/Banks.lean ====
section
/-! SUPPORT. Insertion in order: slots of a bank (R8), point records (R70), offsets. -/

namespace Sys2Proof.Machine

/-- R8: a slot goes in behind every slot whose offset is not above its own. -/
theorem insertSlot_eq (x : Slot) (ys : List Slot) :
    insertSlot x ys = ys.takeWhile (fun y => decide (y.offset ≤ x.offset)) ++
      x :: ys.dropWhile (fun y => decide (y.offset ≤ x.offset)) := by
  induction ys with
  | nil => rfl
  | cons y ys ih =>
    by_cases h : x.offset < y.offset
    · have : ¬ y.offset ≤ x.offset := by omega
      simp [insertSlot, h, this]
    · have : y.offset ≤ x.offset := by omega
      simp [insertSlot, h, this, ih]

/-- The slots of a bank after an insertion. -/
@[simp] theorem mem_insertSlot {x y : Slot} {ys : List Slot} : y ∈ insertSlot x ys ↔ y = x ∨ y ∈ ys := by
  induction ys with
  | nil => simp [insertSlot]
  | cons z zs ih =>
    by_cases h : x.offset < z.offset
    · simp [insertSlot, h]
    · simp [insertSlot, h, ih]
      tauto

/-- A bank holds one slot more after an insertion. -/
@[simp] theorem length_insertSlot (x : Slot) (ys : List Slot) : (insertSlot x ys).length = ys.length + 1 := by
  induction ys with
  | nil => rfl
  | cons z zs ih =>
    by_cases h : x.offset < z.offset <;> simp [insertSlot, h, ih]

/-- R8: a slot at a new offset keeps a bank's offsets strictly ascending. -/
theorem insertSlot_ascending {x : Slot} {ys : List Slot} (h : (ys.map (·.offset)).Pairwise (· < ·))
    (hx : ∀ y ∈ ys, y.offset ≠ x.offset) : ((insertSlot x ys).map (·.offset)).Pairwise (· < ·) := by
  induction ys with
  | nil => simp [insertSlot]
  | cons y ys ih =>
    simp only [List.map_cons, List.pairwise_cons, List.mem_map] at h
    have hy := hx y List.mem_cons_self
    by_cases hlt : x.offset < y.offset
    · simp only [insertSlot, hlt, if_true, List.map_cons, List.pairwise_cons, List.mem_cons, List.mem_map]
      refine ⟨?_, h.1, h.2⟩
      rintro o (rfl | ⟨z, hz, rfl⟩)
      · exact hlt
      · exact hlt.trans (h.1 _ ⟨z, hz, rfl⟩)
    · simp only [insertSlot, hlt, if_false, List.map_cons, List.pairwise_cons, List.mem_map, mem_insertSlot]
      refine ⟨?_, ih h.2 fun z hz => hx z (List.mem_cons_of_mem y hz)⟩
      rintro o ⟨z, rfl | hz, rfl⟩
      · omega
      · exact h.1 _ ⟨z, hz, rfl⟩

/-- R70: a record goes in before the first record whose key comes after its own. -/
theorem insertPoint_eq (p : Point) (qs : List Point) :
    insertPoint p qs = qs.takeWhile (fun q => !p.key.before q.key) ++
      p :: qs.dropWhile (fun q => !p.key.before q.key) := by
  induction qs with
  | nil => rfl
  | cons q qs ih =>
    by_cases h : p.key.before q.key = true
    · simp [insertPoint, h]
    · simp [insertPoint, h, ih]

/-- The records after an insertion. -/
@[simp] theorem mem_insertPoint {p q : Point} {qs : List Point} : q ∈ insertPoint p qs ↔ q = p ∨ q ∈ qs := by
  induction qs with
  | nil => simp [insertPoint]
  | cons z zs ih =>
    by_cases h : p.key.before z.key = true
    · simp [insertPoint, h]
    · simp [insertPoint, h, ih]
      tauto

/-- R20: an offset goes in behind every offset that is not above it. -/
theorem insertOffset_eq (o : Nat) (os : List Nat) :
    insertOffset o os = os.takeWhile (fun p => decide (p ≤ o)) ++ o :: os.dropWhile (fun p => decide (p ≤ o)) := by
  induction os with
  | nil => rfl
  | cons p os ih =>
    by_cases h : o < p
    · have : ¬ p ≤ o := by omega
      simp [insertOffset, h, this]
    · have : p ≤ o := by omega
      simp [insertOffset, h, this, ih]

/-- The offsets after an insertion. -/
@[simp] theorem mem_insertOffset {o p : Nat} {os : List Nat} : p ∈ insertOffset o os ↔ p = o ∨ p ∈ os := by
  induction os with
  | nil => simp [insertOffset]
  | cons z zs ih =>
    by_cases h : o < z
    · simp [insertOffset, h]
    · simp [insertOffset, h, ih]
      tauto

/-- R20: a new offset keeps the offsets strictly ascending. -/
theorem insertOffset_ascending {o : Nat} {os : List Nat} (h : os.Pairwise (· < ·)) (ho : o ∉ os) :
    (insertOffset o os).Pairwise (· < ·) := by
  induction os with
  | nil => simp [insertOffset]
  | cons p os ih =>
    simp only [List.pairwise_cons, List.mem_cons, not_or] at h ho
    by_cases hlt : o < p
    · simp only [insertOffset, hlt, if_true, List.pairwise_cons, List.mem_cons]
      refine ⟨?_, h⟩
      rintro x (rfl | hx)
      · exact hlt
      · exact hlt.trans (h.1 x hx)
    · simp only [insertOffset, hlt, if_false, List.pairwise_cons, mem_insertOffset]
      refine ⟨?_, ih h.2 ho.2⟩
      rintro x (rfl | hx)
      · omega
      · exact h.1 x hx

end Sys2Proof.Machine
end

