-- ==== Sys2Proof/Laws/State.lean ====
section
/-! SUPPORT. The small lemmas of State's updates: one per field per update, true by rfl. -/

namespace Sys2Proof.Machine

variable (s : State)

@[simp] theorem State.setNow_now (x : Nat) : (s.setNow x).now = x := rfl
@[simp] theorem State.setNow_inReset (x : Nat) : (s.setNow x).inReset = s.inReset := rfl
@[simp] theorem State.setNow_sched (x : Nat) : (s.setNow x).sched = s.sched := rfl
@[simp] theorem State.setNow_txn (x : Nat) : (s.setNow x).txn = s.txn := rfl
@[simp] theorem State.setNow_roster (x : Nat) : (s.setNow x).roster = s.roster := rfl
@[simp] theorem State.setNow_points (x : Nat) : (s.setNow x).points = s.points := rfl
@[simp] theorem State.setNow_gap (x : Nat) : (s.setNow x).gap = s.gap := rfl
@[simp] theorem State.setNow_outbound (x : Nat) : (s.setNow x).outbound = s.outbound := rfl
@[simp] theorem State.setNow_attention (x : Nat) : (s.setNow x).attention = s.attention := rfl
@[simp] theorem State.setNow_reports (x : Nat) : (s.setNow x).reports = s.reports := rfl
@[simp] theorem State.setNow_conds (x : Nat) : (s.setNow x).conds = s.conds := rfl
@[simp] theorem State.setNow_lines (x : Nat) : (s.setNow x).lines = s.lines := rfl
@[simp] theorem State.setNow_seg (x : Nat) : (s.setNow x).seg = s.seg := rfl
@[simp] theorem State.setNow_link (x : Nat) : (s.setNow x).link = s.link := rfl
@[simp] theorem State.setNow_pending (x : Nat) : (s.setNow x).pending = s.pending := rfl
@[simp] theorem State.setNow_self : s.setNow s.now = s := rfl
@[simp] theorem State.setNow_again (x y : Nat) : (s.setNow x).setNow y = s.setNow y := rfl

@[simp] theorem State.setInReset_now (x : Bool) : (s.setInReset x).now = s.now := rfl
@[simp] theorem State.setInReset_inReset (x : Bool) : (s.setInReset x).inReset = x := rfl
@[simp] theorem State.setInReset_sched (x : Bool) : (s.setInReset x).sched = s.sched := rfl
@[simp] theorem State.setInReset_txn (x : Bool) : (s.setInReset x).txn = s.txn := rfl
@[simp] theorem State.setInReset_roster (x : Bool) : (s.setInReset x).roster = s.roster := rfl
@[simp] theorem State.setInReset_points (x : Bool) : (s.setInReset x).points = s.points := rfl
@[simp] theorem State.setInReset_gap (x : Bool) : (s.setInReset x).gap = s.gap := rfl
@[simp] theorem State.setInReset_outbound (x : Bool) : (s.setInReset x).outbound = s.outbound := rfl
@[simp] theorem State.setInReset_attention (x : Bool) : (s.setInReset x).attention = s.attention := rfl
@[simp] theorem State.setInReset_reports (x : Bool) : (s.setInReset x).reports = s.reports := rfl
@[simp] theorem State.setInReset_conds (x : Bool) : (s.setInReset x).conds = s.conds := rfl
@[simp] theorem State.setInReset_lines (x : Bool) : (s.setInReset x).lines = s.lines := rfl
@[simp] theorem State.setInReset_seg (x : Bool) : (s.setInReset x).seg = s.seg := rfl
@[simp] theorem State.setInReset_link (x : Bool) : (s.setInReset x).link = s.link := rfl
@[simp] theorem State.setInReset_pending (x : Bool) : (s.setInReset x).pending = s.pending := rfl
@[simp] theorem State.setInReset_self : s.setInReset s.inReset = s := rfl
@[simp] theorem State.setInReset_again (x y : Bool) : (s.setInReset x).setInReset y = s.setInReset y := rfl

@[simp] theorem State.setSched_now (x : Scheduler) : (s.setSched x).now = s.now := rfl
@[simp] theorem State.setSched_inReset (x : Scheduler) : (s.setSched x).inReset = s.inReset := rfl
@[simp] theorem State.setSched_sched (x : Scheduler) : (s.setSched x).sched = x := rfl
@[simp] theorem State.setSched_txn (x : Scheduler) : (s.setSched x).txn = s.txn := rfl
@[simp] theorem State.setSched_roster (x : Scheduler) : (s.setSched x).roster = s.roster := rfl
@[simp] theorem State.setSched_points (x : Scheduler) : (s.setSched x).points = s.points := rfl
@[simp] theorem State.setSched_gap (x : Scheduler) : (s.setSched x).gap = s.gap := rfl
@[simp] theorem State.setSched_outbound (x : Scheduler) : (s.setSched x).outbound = s.outbound := rfl
@[simp] theorem State.setSched_attention (x : Scheduler) : (s.setSched x).attention = s.attention := rfl
@[simp] theorem State.setSched_reports (x : Scheduler) : (s.setSched x).reports = s.reports := rfl
@[simp] theorem State.setSched_conds (x : Scheduler) : (s.setSched x).conds = s.conds := rfl
@[simp] theorem State.setSched_lines (x : Scheduler) : (s.setSched x).lines = s.lines := rfl
@[simp] theorem State.setSched_seg (x : Scheduler) : (s.setSched x).seg = s.seg := rfl
@[simp] theorem State.setSched_link (x : Scheduler) : (s.setSched x).link = s.link := rfl
@[simp] theorem State.setSched_pending (x : Scheduler) : (s.setSched x).pending = s.pending := rfl
@[simp] theorem State.setSched_self : s.setSched s.sched = s := rfl
@[simp] theorem State.setSched_again (x y : Scheduler) : (s.setSched x).setSched y = s.setSched y := rfl

@[simp] theorem State.setTxn_now (x : TransactionUnit) : (s.setTxn x).now = s.now := rfl
@[simp] theorem State.setTxn_inReset (x : TransactionUnit) : (s.setTxn x).inReset = s.inReset := rfl
@[simp] theorem State.setTxn_sched (x : TransactionUnit) : (s.setTxn x).sched = s.sched := rfl
@[simp] theorem State.setTxn_txn (x : TransactionUnit) : (s.setTxn x).txn = x := rfl
@[simp] theorem State.setTxn_roster (x : TransactionUnit) : (s.setTxn x).roster = s.roster := rfl
@[simp] theorem State.setTxn_points (x : TransactionUnit) : (s.setTxn x).points = s.points := rfl
@[simp] theorem State.setTxn_gap (x : TransactionUnit) : (s.setTxn x).gap = s.gap := rfl
@[simp] theorem State.setTxn_outbound (x : TransactionUnit) : (s.setTxn x).outbound = s.outbound := rfl
@[simp] theorem State.setTxn_attention (x : TransactionUnit) : (s.setTxn x).attention = s.attention := rfl
@[simp] theorem State.setTxn_reports (x : TransactionUnit) : (s.setTxn x).reports = s.reports := rfl
@[simp] theorem State.setTxn_conds (x : TransactionUnit) : (s.setTxn x).conds = s.conds := rfl
@[simp] theorem State.setTxn_lines (x : TransactionUnit) : (s.setTxn x).lines = s.lines := rfl
@[simp] theorem State.setTxn_seg (x : TransactionUnit) : (s.setTxn x).seg = s.seg := rfl
@[simp] theorem State.setTxn_link (x : TransactionUnit) : (s.setTxn x).link = s.link := rfl
@[simp] theorem State.setTxn_pending (x : TransactionUnit) : (s.setTxn x).pending = s.pending := rfl
@[simp] theorem State.setTxn_self : s.setTxn s.txn = s := rfl
@[simp] theorem State.setTxn_again (x y : TransactionUnit) : (s.setTxn x).setTxn y = s.setTxn y := rfl

@[simp] theorem State.setRoster_now (x : Roster) : (s.setRoster x).now = s.now := rfl
@[simp] theorem State.setRoster_inReset (x : Roster) : (s.setRoster x).inReset = s.inReset := rfl
@[simp] theorem State.setRoster_sched (x : Roster) : (s.setRoster x).sched = s.sched := rfl
@[simp] theorem State.setRoster_txn (x : Roster) : (s.setRoster x).txn = s.txn := rfl
@[simp] theorem State.setRoster_roster (x : Roster) : (s.setRoster x).roster = x := rfl
@[simp] theorem State.setRoster_points (x : Roster) : (s.setRoster x).points = s.points := rfl
@[simp] theorem State.setRoster_gap (x : Roster) : (s.setRoster x).gap = s.gap := rfl
@[simp] theorem State.setRoster_outbound (x : Roster) : (s.setRoster x).outbound = s.outbound := rfl
@[simp] theorem State.setRoster_attention (x : Roster) : (s.setRoster x).attention = s.attention := rfl
@[simp] theorem State.setRoster_reports (x : Roster) : (s.setRoster x).reports = s.reports := rfl
@[simp] theorem State.setRoster_conds (x : Roster) : (s.setRoster x).conds = s.conds := rfl
@[simp] theorem State.setRoster_lines (x : Roster) : (s.setRoster x).lines = s.lines := rfl
@[simp] theorem State.setRoster_seg (x : Roster) : (s.setRoster x).seg = s.seg := rfl
@[simp] theorem State.setRoster_link (x : Roster) : (s.setRoster x).link = s.link := rfl
@[simp] theorem State.setRoster_pending (x : Roster) : (s.setRoster x).pending = s.pending := rfl
@[simp] theorem State.setRoster_self : s.setRoster s.roster = s := rfl
@[simp] theorem State.setRoster_again (x y : Roster) : (s.setRoster x).setRoster y = s.setRoster y := rfl

@[simp] theorem State.setPoints_now (x : List Point) : (s.setPoints x).now = s.now := rfl
@[simp] theorem State.setPoints_inReset (x : List Point) : (s.setPoints x).inReset = s.inReset := rfl
@[simp] theorem State.setPoints_sched (x : List Point) : (s.setPoints x).sched = s.sched := rfl
@[simp] theorem State.setPoints_txn (x : List Point) : (s.setPoints x).txn = s.txn := rfl
@[simp] theorem State.setPoints_roster (x : List Point) : (s.setPoints x).roster = s.roster := rfl
@[simp] theorem State.setPoints_points (x : List Point) : (s.setPoints x).points = x := rfl
@[simp] theorem State.setPoints_gap (x : List Point) : (s.setPoints x).gap = s.gap := rfl
@[simp] theorem State.setPoints_outbound (x : List Point) : (s.setPoints x).outbound = s.outbound := rfl
@[simp] theorem State.setPoints_attention (x : List Point) : (s.setPoints x).attention = s.attention := rfl
@[simp] theorem State.setPoints_reports (x : List Point) : (s.setPoints x).reports = s.reports := rfl
@[simp] theorem State.setPoints_conds (x : List Point) : (s.setPoints x).conds = s.conds := rfl
@[simp] theorem State.setPoints_lines (x : List Point) : (s.setPoints x).lines = s.lines := rfl
@[simp] theorem State.setPoints_seg (x : List Point) : (s.setPoints x).seg = s.seg := rfl
@[simp] theorem State.setPoints_link (x : List Point) : (s.setPoints x).link = s.link := rfl
@[simp] theorem State.setPoints_pending (x : List Point) : (s.setPoints x).pending = s.pending := rfl
@[simp] theorem State.setPoints_self : s.setPoints s.points = s := rfl
@[simp] theorem State.setPoints_again (x y : List Point) : (s.setPoints x).setPoints y = s.setPoints y := rfl

@[simp] theorem State.setGap_now (x : GapArbiter) : (s.setGap x).now = s.now := rfl
@[simp] theorem State.setGap_inReset (x : GapArbiter) : (s.setGap x).inReset = s.inReset := rfl
@[simp] theorem State.setGap_sched (x : GapArbiter) : (s.setGap x).sched = s.sched := rfl
@[simp] theorem State.setGap_txn (x : GapArbiter) : (s.setGap x).txn = s.txn := rfl
@[simp] theorem State.setGap_roster (x : GapArbiter) : (s.setGap x).roster = s.roster := rfl
@[simp] theorem State.setGap_points (x : GapArbiter) : (s.setGap x).points = s.points := rfl
@[simp] theorem State.setGap_gap (x : GapArbiter) : (s.setGap x).gap = x := rfl
@[simp] theorem State.setGap_outbound (x : GapArbiter) : (s.setGap x).outbound = s.outbound := rfl
@[simp] theorem State.setGap_attention (x : GapArbiter) : (s.setGap x).attention = s.attention := rfl
@[simp] theorem State.setGap_reports (x : GapArbiter) : (s.setGap x).reports = s.reports := rfl
@[simp] theorem State.setGap_conds (x : GapArbiter) : (s.setGap x).conds = s.conds := rfl
@[simp] theorem State.setGap_lines (x : GapArbiter) : (s.setGap x).lines = s.lines := rfl
@[simp] theorem State.setGap_seg (x : GapArbiter) : (s.setGap x).seg = s.seg := rfl
@[simp] theorem State.setGap_link (x : GapArbiter) : (s.setGap x).link = s.link := rfl
@[simp] theorem State.setGap_pending (x : GapArbiter) : (s.setGap x).pending = s.pending := rfl
@[simp] theorem State.setGap_self : s.setGap s.gap = s := rfl
@[simp] theorem State.setGap_again (x y : GapArbiter) : (s.setGap x).setGap y = s.setGap y := rfl

@[simp] theorem State.setOutbound_now (x : List Message) : (s.setOutbound x).now = s.now := rfl
@[simp] theorem State.setOutbound_inReset (x : List Message) : (s.setOutbound x).inReset = s.inReset := rfl
@[simp] theorem State.setOutbound_sched (x : List Message) : (s.setOutbound x).sched = s.sched := rfl
@[simp] theorem State.setOutbound_txn (x : List Message) : (s.setOutbound x).txn = s.txn := rfl
@[simp] theorem State.setOutbound_roster (x : List Message) : (s.setOutbound x).roster = s.roster := rfl
@[simp] theorem State.setOutbound_points (x : List Message) : (s.setOutbound x).points = s.points := rfl
@[simp] theorem State.setOutbound_gap (x : List Message) : (s.setOutbound x).gap = s.gap := rfl
@[simp] theorem State.setOutbound_outbound (x : List Message) : (s.setOutbound x).outbound = x := rfl
@[simp] theorem State.setOutbound_attention (x : List Message) : (s.setOutbound x).attention = s.attention := rfl
@[simp] theorem State.setOutbound_reports (x : List Message) : (s.setOutbound x).reports = s.reports := rfl
@[simp] theorem State.setOutbound_conds (x : List Message) : (s.setOutbound x).conds = s.conds := rfl
@[simp] theorem State.setOutbound_lines (x : List Message) : (s.setOutbound x).lines = s.lines := rfl
@[simp] theorem State.setOutbound_seg (x : List Message) : (s.setOutbound x).seg = s.seg := rfl
@[simp] theorem State.setOutbound_link (x : List Message) : (s.setOutbound x).link = s.link := rfl
@[simp] theorem State.setOutbound_pending (x : List Message) : (s.setOutbound x).pending = s.pending := rfl
@[simp] theorem State.setOutbound_self : s.setOutbound s.outbound = s := rfl
@[simp] theorem State.setOutbound_again (x y : List Message) : (s.setOutbound x).setOutbound y = s.setOutbound y := rfl

@[simp] theorem State.setAttention_now (x : List Nat) : (s.setAttention x).now = s.now := rfl
@[simp] theorem State.setAttention_inReset (x : List Nat) : (s.setAttention x).inReset = s.inReset := rfl
@[simp] theorem State.setAttention_sched (x : List Nat) : (s.setAttention x).sched = s.sched := rfl
@[simp] theorem State.setAttention_txn (x : List Nat) : (s.setAttention x).txn = s.txn := rfl
@[simp] theorem State.setAttention_roster (x : List Nat) : (s.setAttention x).roster = s.roster := rfl
@[simp] theorem State.setAttention_points (x : List Nat) : (s.setAttention x).points = s.points := rfl
@[simp] theorem State.setAttention_gap (x : List Nat) : (s.setAttention x).gap = s.gap := rfl
@[simp] theorem State.setAttention_outbound (x : List Nat) : (s.setAttention x).outbound = s.outbound := rfl
@[simp] theorem State.setAttention_attention (x : List Nat) : (s.setAttention x).attention = x := rfl
@[simp] theorem State.setAttention_reports (x : List Nat) : (s.setAttention x).reports = s.reports := rfl
@[simp] theorem State.setAttention_conds (x : List Nat) : (s.setAttention x).conds = s.conds := rfl
@[simp] theorem State.setAttention_lines (x : List Nat) : (s.setAttention x).lines = s.lines := rfl
@[simp] theorem State.setAttention_seg (x : List Nat) : (s.setAttention x).seg = s.seg := rfl
@[simp] theorem State.setAttention_link (x : List Nat) : (s.setAttention x).link = s.link := rfl
@[simp] theorem State.setAttention_pending (x : List Nat) : (s.setAttention x).pending = s.pending := rfl
@[simp] theorem State.setAttention_self : s.setAttention s.attention = s := rfl
@[simp] theorem State.setAttention_again (x y : List Nat) : (s.setAttention x).setAttention y = s.setAttention y := rfl

@[simp] theorem State.setReports_now (x : ReportQueue) : (s.setReports x).now = s.now := rfl
@[simp] theorem State.setReports_inReset (x : ReportQueue) : (s.setReports x).inReset = s.inReset := rfl
@[simp] theorem State.setReports_sched (x : ReportQueue) : (s.setReports x).sched = s.sched := rfl
@[simp] theorem State.setReports_txn (x : ReportQueue) : (s.setReports x).txn = s.txn := rfl
@[simp] theorem State.setReports_roster (x : ReportQueue) : (s.setReports x).roster = s.roster := rfl
@[simp] theorem State.setReports_points (x : ReportQueue) : (s.setReports x).points = s.points := rfl
@[simp] theorem State.setReports_gap (x : ReportQueue) : (s.setReports x).gap = s.gap := rfl
@[simp] theorem State.setReports_outbound (x : ReportQueue) : (s.setReports x).outbound = s.outbound := rfl
@[simp] theorem State.setReports_attention (x : ReportQueue) : (s.setReports x).attention = s.attention := rfl
@[simp] theorem State.setReports_reports (x : ReportQueue) : (s.setReports x).reports = x := rfl
@[simp] theorem State.setReports_conds (x : ReportQueue) : (s.setReports x).conds = s.conds := rfl
@[simp] theorem State.setReports_lines (x : ReportQueue) : (s.setReports x).lines = s.lines := rfl
@[simp] theorem State.setReports_seg (x : ReportQueue) : (s.setReports x).seg = s.seg := rfl
@[simp] theorem State.setReports_link (x : ReportQueue) : (s.setReports x).link = s.link := rfl
@[simp] theorem State.setReports_pending (x : ReportQueue) : (s.setReports x).pending = s.pending := rfl
@[simp] theorem State.setReports_self : s.setReports s.reports = s := rfl
@[simp] theorem State.setReports_again (x y : ReportQueue) : (s.setReports x).setReports y = s.setReports y := rfl

@[simp] theorem State.setConds_now (x : ConditionSet) : (s.setConds x).now = s.now := rfl
@[simp] theorem State.setConds_inReset (x : ConditionSet) : (s.setConds x).inReset = s.inReset := rfl
@[simp] theorem State.setConds_sched (x : ConditionSet) : (s.setConds x).sched = s.sched := rfl
@[simp] theorem State.setConds_txn (x : ConditionSet) : (s.setConds x).txn = s.txn := rfl
@[simp] theorem State.setConds_roster (x : ConditionSet) : (s.setConds x).roster = s.roster := rfl
@[simp] theorem State.setConds_points (x : ConditionSet) : (s.setConds x).points = s.points := rfl
@[simp] theorem State.setConds_gap (x : ConditionSet) : (s.setConds x).gap = s.gap := rfl
@[simp] theorem State.setConds_outbound (x : ConditionSet) : (s.setConds x).outbound = s.outbound := rfl
@[simp] theorem State.setConds_attention (x : ConditionSet) : (s.setConds x).attention = s.attention := rfl
@[simp] theorem State.setConds_reports (x : ConditionSet) : (s.setConds x).reports = s.reports := rfl
@[simp] theorem State.setConds_conds (x : ConditionSet) : (s.setConds x).conds = x := rfl
@[simp] theorem State.setConds_lines (x : ConditionSet) : (s.setConds x).lines = s.lines := rfl
@[simp] theorem State.setConds_seg (x : ConditionSet) : (s.setConds x).seg = s.seg := rfl
@[simp] theorem State.setConds_link (x : ConditionSet) : (s.setConds x).link = s.link := rfl
@[simp] theorem State.setConds_pending (x : ConditionSet) : (s.setConds x).pending = s.pending := rfl
@[simp] theorem State.setConds_self : s.setConds s.conds = s := rfl
@[simp] theorem State.setConds_again (x y : ConditionSet) : (s.setConds x).setConds y = s.setConds y := rfl

@[simp] theorem State.setLines_now (x : LocalLines) : (s.setLines x).now = s.now := rfl
@[simp] theorem State.setLines_inReset (x : LocalLines) : (s.setLines x).inReset = s.inReset := rfl
@[simp] theorem State.setLines_sched (x : LocalLines) : (s.setLines x).sched = s.sched := rfl
@[simp] theorem State.setLines_txn (x : LocalLines) : (s.setLines x).txn = s.txn := rfl
@[simp] theorem State.setLines_roster (x : LocalLines) : (s.setLines x).roster = s.roster := rfl
@[simp] theorem State.setLines_points (x : LocalLines) : (s.setLines x).points = s.points := rfl
@[simp] theorem State.setLines_gap (x : LocalLines) : (s.setLines x).gap = s.gap := rfl
@[simp] theorem State.setLines_outbound (x : LocalLines) : (s.setLines x).outbound = s.outbound := rfl
@[simp] theorem State.setLines_attention (x : LocalLines) : (s.setLines x).attention = s.attention := rfl
@[simp] theorem State.setLines_reports (x : LocalLines) : (s.setLines x).reports = s.reports := rfl
@[simp] theorem State.setLines_conds (x : LocalLines) : (s.setLines x).conds = s.conds := rfl
@[simp] theorem State.setLines_lines (x : LocalLines) : (s.setLines x).lines = x := rfl
@[simp] theorem State.setLines_seg (x : LocalLines) : (s.setLines x).seg = s.seg := rfl
@[simp] theorem State.setLines_link (x : LocalLines) : (s.setLines x).link = s.link := rfl
@[simp] theorem State.setLines_pending (x : LocalLines) : (s.setLines x).pending = s.pending := rfl
@[simp] theorem State.setLines_self : s.setLines s.lines = s := rfl
@[simp] theorem State.setLines_again (x y : LocalLines) : (s.setLines x).setLines y = s.setLines y := rfl

@[simp] theorem State.setSeg_now (x : SegmentLine) : (s.setSeg x).now = s.now := rfl
@[simp] theorem State.setSeg_inReset (x : SegmentLine) : (s.setSeg x).inReset = s.inReset := rfl
@[simp] theorem State.setSeg_sched (x : SegmentLine) : (s.setSeg x).sched = s.sched := rfl
@[simp] theorem State.setSeg_txn (x : SegmentLine) : (s.setSeg x).txn = s.txn := rfl
@[simp] theorem State.setSeg_roster (x : SegmentLine) : (s.setSeg x).roster = s.roster := rfl
@[simp] theorem State.setSeg_points (x : SegmentLine) : (s.setSeg x).points = s.points := rfl
@[simp] theorem State.setSeg_gap (x : SegmentLine) : (s.setSeg x).gap = s.gap := rfl
@[simp] theorem State.setSeg_outbound (x : SegmentLine) : (s.setSeg x).outbound = s.outbound := rfl
@[simp] theorem State.setSeg_attention (x : SegmentLine) : (s.setSeg x).attention = s.attention := rfl
@[simp] theorem State.setSeg_reports (x : SegmentLine) : (s.setSeg x).reports = s.reports := rfl
@[simp] theorem State.setSeg_conds (x : SegmentLine) : (s.setSeg x).conds = s.conds := rfl
@[simp] theorem State.setSeg_lines (x : SegmentLine) : (s.setSeg x).lines = s.lines := rfl
@[simp] theorem State.setSeg_seg (x : SegmentLine) : (s.setSeg x).seg = x := rfl
@[simp] theorem State.setSeg_link (x : SegmentLine) : (s.setSeg x).link = s.link := rfl
@[simp] theorem State.setSeg_pending (x : SegmentLine) : (s.setSeg x).pending = s.pending := rfl
@[simp] theorem State.setSeg_self : s.setSeg s.seg = s := rfl
@[simp] theorem State.setSeg_again (x y : SegmentLine) : (s.setSeg x).setSeg y = s.setSeg y := rfl

@[simp] theorem State.setLink_now (x : HostLink) : (s.setLink x).now = s.now := rfl
@[simp] theorem State.setLink_inReset (x : HostLink) : (s.setLink x).inReset = s.inReset := rfl
@[simp] theorem State.setLink_sched (x : HostLink) : (s.setLink x).sched = s.sched := rfl
@[simp] theorem State.setLink_txn (x : HostLink) : (s.setLink x).txn = s.txn := rfl
@[simp] theorem State.setLink_roster (x : HostLink) : (s.setLink x).roster = s.roster := rfl
@[simp] theorem State.setLink_points (x : HostLink) : (s.setLink x).points = s.points := rfl
@[simp] theorem State.setLink_gap (x : HostLink) : (s.setLink x).gap = s.gap := rfl
@[simp] theorem State.setLink_outbound (x : HostLink) : (s.setLink x).outbound = s.outbound := rfl
@[simp] theorem State.setLink_attention (x : HostLink) : (s.setLink x).attention = s.attention := rfl
@[simp] theorem State.setLink_reports (x : HostLink) : (s.setLink x).reports = s.reports := rfl
@[simp] theorem State.setLink_conds (x : HostLink) : (s.setLink x).conds = s.conds := rfl
@[simp] theorem State.setLink_lines (x : HostLink) : (s.setLink x).lines = s.lines := rfl
@[simp] theorem State.setLink_seg (x : HostLink) : (s.setLink x).seg = s.seg := rfl
@[simp] theorem State.setLink_link (x : HostLink) : (s.setLink x).link = x := rfl
@[simp] theorem State.setLink_pending (x : HostLink) : (s.setLink x).pending = s.pending := rfl
@[simp] theorem State.setLink_self : s.setLink s.link = s := rfl
@[simp] theorem State.setLink_again (x y : HostLink) : (s.setLink x).setLink y = s.setLink y := rfl

@[simp] theorem State.setPending_now (x : List Instr) : (s.setPending x).now = s.now := rfl
@[simp] theorem State.setPending_inReset (x : List Instr) : (s.setPending x).inReset = s.inReset := rfl
@[simp] theorem State.setPending_sched (x : List Instr) : (s.setPending x).sched = s.sched := rfl
@[simp] theorem State.setPending_txn (x : List Instr) : (s.setPending x).txn = s.txn := rfl
@[simp] theorem State.setPending_roster (x : List Instr) : (s.setPending x).roster = s.roster := rfl
@[simp] theorem State.setPending_points (x : List Instr) : (s.setPending x).points = s.points := rfl
@[simp] theorem State.setPending_gap (x : List Instr) : (s.setPending x).gap = s.gap := rfl
@[simp] theorem State.setPending_outbound (x : List Instr) : (s.setPending x).outbound = s.outbound := rfl
@[simp] theorem State.setPending_attention (x : List Instr) : (s.setPending x).attention = s.attention := rfl
@[simp] theorem State.setPending_reports (x : List Instr) : (s.setPending x).reports = s.reports := rfl
@[simp] theorem State.setPending_conds (x : List Instr) : (s.setPending x).conds = s.conds := rfl
@[simp] theorem State.setPending_lines (x : List Instr) : (s.setPending x).lines = s.lines := rfl
@[simp] theorem State.setPending_seg (x : List Instr) : (s.setPending x).seg = s.seg := rfl
@[simp] theorem State.setPending_link (x : List Instr) : (s.setPending x).link = s.link := rfl
@[simp] theorem State.setPending_pending (x : List Instr) : (s.setPending x).pending = x := rfl
@[simp] theorem State.setPending_self : s.setPending s.pending = s := rfl
@[simp] theorem State.setPending_again (x y : List Instr) : (s.setPending x).setPending y = s.setPending y := rfl

end Sys2Proof.Machine
end

