-- ==== Sys2Proof/Laws/Cycle.lean ====
section
/-! SUPPORT. What skipping a slot, relabelling the skips of an unsent MARK, the line's permission, replacing a line's record, and
taking a lasting edge can do. -/

namespace Sys2Proof.Machine

/-! ## Skips (R19, R21) -/

/-- R21: the summary of the operations is that of the statements. -/
theorem SkipSummary.join_eq (m : SkipSummary) (x : Skip) : m.join x = m.plus x := by
  obtain ⟨o, r, t⟩ := x
  simp only [SkipSummary.join, SkipSummary.plus, firstSkip, eq_comm (a := t)]
  cases r <;> rfl

/-- R21: a skip touches the summary and the skip total alone. -/
theorem recordSkip_eq (offset : Nat) (reason : SkipReason) (s : State) :
    recordSkip offset reason s = s.skipping offset reason := by
  simp only [recordSkip, State.skipping, SkipSummary.join_eq]
  rfl

/-- R19: a MARK that went out leaves the skips as they were recorded. -/
theorem overrunLate_sent {s : State} (h : s.sched.markWaiting = false) : overrunLate s = s := by
  simp [overrunLate, h]

/-- R19: the skips recorded as OVERRUN anew stay as many. -/
@[simp] theorem SkipSummary.lateAsOverrun_count (now : Nat) (m : SkipSummary) :
    (m.lateAsOverrun now).count = m.count := by
  unfold SkipSummary.lateAsOverrun
  split
  · split <;> rfl
  · rfl

/-- R19: of a cycle whose MARK never went out, no skip is shown as LATE. -/
theorem SkipSummary.lateAsOverrun_not_late {now : Nat} {m : SkipSummary} {x : Skip}
    (hc : ∀ y, m.firstCue = some y → y.reason ≠ .late) (h : (m.lateAsOverrun now).first = some x) :
    x.reason ≠ .late := by
  unfold SkipSummary.lateAsOverrun at h
  split at h
  · split at h
    · cases hm : m.firstCue with
      | none =>
        rw [hm] at h
        cases h
        simp [firstSkip]
      | some y =>
        rw [hm] at h
        simp only [firstSkip] at h
        split at h
        · cases h
          simp
        · cases h
          exact hc _ hm
    · rename_i hx hr
      rw [hx] at h
      cases h
      exact hr
  · rename_i hx
    rw [hx] at h
    cases h

/-! ## The line's permission (R18) -/

/-- R18: the three conditions of a start. -/
theorem State.linePermits_iff (s : State) :
    s.linePermits = true ↔
      s.txn.record = none ∧ s.seg.activity = .quiet ∧
        max s.seg.lastTransition s.seg.lastEndDelimiter + s.bits 8 ≤ s.now ∧ s.seg.babbleFault = false := by
  simp only [State.linePermits, State.turnaroundMet, State.turnaroundAt, Config.turnaroundBits, Bool.and_eq_true,
    Option.isNone_iff_eq_none, beq_iff_eq, Bool.not_eq_true', and_assoc]
  exact and_congr_right fun _ => and_congr_right fun _ => and_congr_left fun _ => decide_eq_true_iff

/-! ## Lines (R143, R145) -/

/-- R145: replacing a line's record by the operations is the line's taking it by the statements. -/
theorem putLine_eq (i : Fin 8) (r : LineRecord) (s : State) : putLine i r s = s.lineTakes i r r.drive := by
  have keep : s.lines.pins.set i s.lines.pins[i] = s.lines.pins := by simp
  have drives : ∀ v, s.lines.records[i].drives v = decide (some v = s.lines.records[i].drive) := by
    intro v
    generalize s.lines.records[i] = q
    cases q <;> simp [LineRecord.drives, LineRecord.drive, eq_comm, Bool.beq_eq_decide_eq]
  unfold putLine State.lineTakes State.setLines
  cases r.drive with
  | none =>
    have : (if none = s.lines.records[i].drive then s.lines.pins[i] else (none : Option Level).getD s.lines.pins[i]) =
        s.lines.pins[i] := ite_self _
    rw [this, keep]
  | some v =>
    by_cases h : some v = s.lines.records[i].drive
    · rw [if_pos h, keep]
      simp only [drives, h, decide_true, if_true]
    · rw [if_neg h]
      simp only [drives, h, decide_false, Bool.false_eq_true, if_false, Option.getD_some]

/-! ## Lasting edges (R146) -/

/-- R146: a pin that shows the filtered level has no edge to take. -/
theorem takeLasting_same {i : Fin 8} {l : InputLine} {s : State} (h : s.lines.records[i] = .input l)
    (hp : s.lines.pins[i] = l.filtered) : takeLasting i s = s := by
  unfold takeLasting
  rw [h]
  simp [InputLine.filterEnd, hp]

/-- R146: an edge is taken at a change of the pin only when it has lasted the filter time. -/
theorem takeLasting_short {i : Fin 8} {l : InputLine} {s : State} (h : s.lines.records[i] = .input l)
    (hs : ∀ t, l.differsSince = some t → s.now < t + l.filter * 1024) : takeLasting i s = s := by
  unfold takeLasting
  rw [h]
  by_cases hp : s.lines.pins[i] = l.filtered
  · simp [InputLine.filterEnd, hp]
  · cases hd : l.differsSince with
    | none => simp [InputLine.filterEnd, hd]
    | some t =>
      simp only [InputLine.filterEnd, if_neg hp, hd, Option.map_some]
      exact if_neg (Nat.not_le.2 (hs t hd))

end Sys2Proof.Machine
end

