-- ==== Sys2Proof/Laws/Gap.lean ====
section
/-! SUPPORT. What the search for a probe candidate can find (R48). -/

namespace Sys2Proof.Machine

/-- R48: the roster entry of a station's address may be probed. -/
def State.mayProbe (s : State) (a : Nat) : Prop :=
  1 ≤ a ∧ a ≤ 62 ∧ ((s.entry a).state = .vacant ∨ (s.entry a).state = .lost)

/-- R48: an address comes before another in the search from the pointer. -/
def soonerFrom (pointer b a : Nat) : Prop := if pointer ≤ a then pointer ≤ b ∧ b < a else pointer ≤ b ∨ b < a

/-- The place of an address in the search. -/
def searchPlace (pointer a : Nat) : Nat := if pointer ≤ a then a - pointer else a + 62 - pointer

/-- The address at a place of the search. -/
theorem searchPlace_address {p k : Nat} (hp : 1 ≤ p) (hq : p ≤ 62) (hk : k < 62) :
    1 ≤ (p - 1 + k) % 62 + 1 ∧ (p - 1 + k) % 62 + 1 ≤ 62 ∧ searchPlace p ((p - 1 + k) % 62 + 1) = k := by
  unfold searchPlace
  split <;> omega

/-- The place of an address holds it. -/
theorem address_searchPlace {p a : Nat} (hp : 1 ≤ p) (hq : p ≤ 62) (ha : 1 ≤ a) (hb : a ≤ 62) :
    searchPlace p a < 62 ∧ (p - 1 + searchPlace p a) % 62 + 1 = a := by
  unfold searchPlace
  split <;> omega

/-- R48: the order of the search is the order of the places. -/
theorem soonerFrom_iff {p a b : Nat} (hp : 1 ≤ p) (hq : p ≤ 62) (ha : 1 ≤ a) (ha' : a ≤ 62) (hb : 1 ≤ b) (hb' : b ≤ 62) :
    soonerFrom p b a ↔ searchPlace p b < searchPlace p a := by
  unfold soonerFrom searchPlace
  split <;> split <;> omega

/-- R48: the candidate is the entry that may be probed and comes first. -/
theorem State.probeCandidate_eq_some_iff {s : State} {a : Nat} (hp : 1 ≤ s.roster.probePointer)
    (hq : s.roster.probePointer ≤ 62) :
    s.probeCandidate = some a ↔
      s.mayProbe a ∧ ∀ b, s.mayProbe b → ¬ soonerFrom s.roster.probePointer b a := by
  simp only [State.probeCandidate, probeOrder, Config.stationCount, List.find?_map, Option.map_eq_some_iff,
    List.find?_range_eq_some, Function.comp, List.mem_range, Bool.or_eq_true, beq_iff_eq, Bool.not_eq_true',
    Bool.or_eq_false_iff]
  constructor
  · rintro ⟨k, ⟨hk, hlt, hmin⟩, rfl⟩
    obtain ⟨h1, h2, h3⟩ := searchPlace_address hp hq hlt
    refine ⟨⟨h1, h2, hk⟩, fun b hb hs => ?_⟩
    rw [soonerFrom_iff hp hq h1 h2 hb.1 hb.2.1, h3] at hs
    have := hmin _ hs
    rw [(address_searchPlace hp hq hb.1 hb.2.1).2] at this
    rcases hb.2.2 with h | h <;> simp [h] at this
  · rintro ⟨⟨h1, h2, ha⟩, hmin⟩
    obtain ⟨hk, he⟩ := address_searchPlace hp hq h1 h2
    refine ⟨searchPlace s.roster.probePointer a, ⟨by rw [he]; exact ha, hk, fun j hj => ?_⟩, he⟩
    obtain ⟨g1, g2, g3⟩ := searchPlace_address hp hq (hj.trans hk)
    have := mt (hmin ((s.roster.probePointer - 1 + j) % 62 + 1))
      (by rw [soonerFrom_iff hp hq h1 h2 g1 g2, g3]; exact not_not_intro hj)
    simp only [State.mayProbe, g1, g2, true_and, not_or] at this
    simpa using this

/-- R48: there is no candidate exactly when no entry may be probed. -/
theorem State.probeCandidate_eq_none_iff {s : State} (hp : 1 ≤ s.roster.probePointer)
    (hq : s.roster.probePointer ≤ 62) : s.probeCandidate = none ↔ ∀ a, ¬ s.mayProbe a := by
  simp only [State.probeCandidate, probeOrder, Config.stationCount, List.find?_eq_none, List.mem_map, List.mem_range]
  constructor
  · intro h a ⟨h1, h2, ha⟩
    obtain ⟨hk, he⟩ := address_searchPlace hp hq h1 h2
    exact h a ⟨_, hk, he⟩ (by rcases ha with e | e <;> simp [e])
  · rintro h _ ⟨k, hk, rfl⟩ hs
    obtain ⟨h1, h2, -⟩ := searchPlace_address hp hq hk
    exact h _ ⟨h1, h2, by simpa using hs⟩

end Sys2Proof.Machine
end

