-- ==== Sys2Proof/Laws/Link.lean ====
section
/-! SUPPORT. What taking a request and handing over a response can do, said once. -/

namespace Sys2Proof.Machine

/-- Out of reset, a happening acts. -/
@[simp] theorem unlessInReset_running {f : State → State} {s : State} (h : s.inReset = false) :
    unlessInReset f s = f s := by simp [unlessInReset, h]

/-- In reset, a happening does nothing. -/
@[simp] theorem unlessInReset_held {f : State → State} {s : State} (h : s.inReset = true) :
    unlessInReset f s = s := by simp [unlessInReset, h]

/-! ## Taking a request and answering it touch the link alone -/

@[simp] theorem State.taken_now (s : State) : s.taken.now = s.now := rfl
@[simp] theorem State.taken_inReset (s : State) : s.taken.inReset = s.inReset := rfl
@[simp] theorem State.taken_sched (s : State) : s.taken.sched = s.sched := rfl
@[simp] theorem State.taken_txn (s : State) : s.taken.txn = s.txn := rfl
@[simp] theorem State.taken_roster (s : State) : s.taken.roster = s.roster := rfl
@[simp] theorem State.taken_points (s : State) : s.taken.points = s.points := rfl
@[simp] theorem State.taken_gap (s : State) : s.taken.gap = s.gap := rfl
@[simp] theorem State.taken_outbound (s : State) : s.taken.outbound = s.outbound := rfl
@[simp] theorem State.taken_attention (s : State) : s.taken.attention = s.attention := rfl
@[simp] theorem State.taken_reports (s : State) : s.taken.reports = s.reports := rfl
@[simp] theorem State.taken_lines (s : State) : s.taken.lines = s.lines := rfl
@[simp] theorem State.taken_seg (s : State) : s.taken.seg = s.seg := rfl
@[simp] theorem State.taken_pending (s : State) : s.taken.pending = s.pending := rfl
@[simp] theorem State.taken_conds (s : State) : s.taken.conds = s.conds := rfl
@[simp] theorem State.taken_link_rate (s : State) : s.taken.link.rate = s.link.rate := rfl
@[simp] theorem State.taken_link_assembler (s : State) : s.taken.link.assembler = s.link.assembler := rfl
@[simp] theorem State.taken_link_lastByteAt (s : State) : s.taken.link.lastByteAt = s.link.lastByteAt := rfl
@[simp] theorem State.taken_link_lastRequest (s : State) : s.taken.link.lastRequest = s.link.lastRequest := rfl
@[simp] theorem State.taken_link_waiting (s : State) : s.taken.link.waiting = s.link.waiting := rfl
@[simp] theorem State.taken_link_sending (s : State) : s.taken.link.sending = s.link.sending := rfl
@[simp] theorem State.taken_link_sendingSince (s : State) : s.taken.link.sendingSince = s.link.sendingSince := rfl
@[simp] theorem State.taken_link_timeoutTally (s : State) : s.taken.link.timeoutTally = s.link.timeoutTally := rfl
@[simp] theorem State.taken_link_crcTally (s : State) : s.taken.link.crcTally = s.link.crcTally := rfl
@[simp] theorem State.taken_link_formatTally (s : State) : s.taken.link.formatTally = s.link.formatTally := rfl
@[simp] theorem State.taken_link_overrunTally (s : State) : s.taken.link.overrunTally = s.link.overrunTally := rfl
@[simp] theorem State.taken_link_newRate (s : State) : s.taken.link.newRate = s.link.newRate := rfl
@[simp] theorem State.taken_link_restartDue (s : State) : s.taken.link.restartDue = s.link.restartDue := rfl
@[simp] theorem State.taken_link_silenceStart (s : State) : s.taken.link.silenceStart = s.link.silenceStart := rfl
@[simp] theorem State.taken_link_buffer (s : State) : s.taken.link.buffer = s.link.buffer.tail := rfl
@[simp] theorem State.taken_entry (s : State) (a : Nat) : s.taken.entry a = s.entry a := rfl
@[simp] theorem State.taken_stationActive (s : State) (a : Nat) : s.taken.stationActive a = s.stationActive a := rfl
@[simp] theorem State.taken_point (s : State) (k : Key) : s.taken.point k = s.point k := rfl
@[simp] theorem State.taken_message (s : State) (t : Byte) : s.taken.message t = s.message t := rfl
@[simp] theorem State.taken_heldPresent (s : State) : s.taken.heldPresent = s.heldPresent := rfl
@[simp] theorem addressesIn_taken (x : RosterState) (s : State) : addressesIn x s.taken = addressesIn x s := rfl

@[simp] theorem State.answered_now (s : State) (r : RequestName) (n : Word16) (x : Reply) :
    (s.answered r n x).now = s.now := rfl
@[simp] theorem State.answered_inReset (s : State) (r : RequestName) (n : Word16) (x : Reply) :
    (s.answered r n x).inReset = s.inReset := rfl
@[simp] theorem State.answered_sched (s : State) (r : RequestName) (n : Word16) (x : Reply) :
    (s.answered r n x).sched = s.sched := rfl
@[simp] theorem State.answered_txn (s : State) (r : RequestName) (n : Word16) (x : Reply) :
    (s.answered r n x).txn = s.txn := rfl
@[simp] theorem State.answered_roster (s : State) (r : RequestName) (n : Word16) (x : Reply) :
    (s.answered r n x).roster = s.roster := rfl
@[simp] theorem State.answered_points (s : State) (r : RequestName) (n : Word16) (x : Reply) :
    (s.answered r n x).points = s.points := rfl
@[simp] theorem State.answered_gap (s : State) (r : RequestName) (n : Word16) (x : Reply) :
    (s.answered r n x).gap = s.gap := rfl
@[simp] theorem State.answered_outbound (s : State) (r : RequestName) (n : Word16) (x : Reply) :
    (s.answered r n x).outbound = s.outbound := rfl
@[simp] theorem State.answered_attention (s : State) (r : RequestName) (n : Word16) (x : Reply) :
    (s.answered r n x).attention = s.attention := rfl
@[simp] theorem State.answered_reports (s : State) (r : RequestName) (n : Word16) (x : Reply) :
    (s.answered r n x).reports = s.reports := rfl
@[simp] theorem State.answered_lines (s : State) (r : RequestName) (n : Word16) (x : Reply) :
    (s.answered r n x).lines = s.lines := rfl
@[simp] theorem State.answered_seg (s : State) (r : RequestName) (n : Word16) (x : Reply) :
    (s.answered r n x).seg = s.seg := rfl
@[simp] theorem State.answered_pending (s : State) (r : RequestName) (n : Word16) (x : Reply) :
    (s.answered r n x).pending = s.pending := rfl
@[simp] theorem State.answered_conds (s : State) (r : RequestName) (n : Word16) (x : Reply) :
    (s.answered r n x).conds = s.conds := rfl
@[simp] theorem State.answered_link_rate (s : State) (r : RequestName) (n : Word16) (x : Reply) :
    (s.answered r n x).link.rate = s.link.rate := rfl
@[simp] theorem State.answered_link_assembler (s : State) (r : RequestName) (n : Word16) (x : Reply) :
    (s.answered r n x).link.assembler = s.link.assembler := rfl
@[simp] theorem State.answered_link_lastByteAt (s : State) (r : RequestName) (n : Word16) (x : Reply) :
    (s.answered r n x).link.lastByteAt = s.link.lastByteAt := rfl
@[simp] theorem State.answered_link_buffer (s : State) (r : RequestName) (n : Word16) (x : Reply) :
    (s.answered r n x).link.buffer = s.link.buffer := rfl
@[simp] theorem State.answered_link_timeoutTally (s : State) (r : RequestName) (n : Word16) (x : Reply) :
    (s.answered r n x).link.timeoutTally = s.link.timeoutTally := rfl
@[simp] theorem State.answered_link_crcTally (s : State) (r : RequestName) (n : Word16) (x : Reply) :
    (s.answered r n x).link.crcTally = s.link.crcTally := rfl
@[simp] theorem State.answered_link_formatTally (s : State) (r : RequestName) (n : Word16) (x : Reply) :
    (s.answered r n x).link.formatTally = s.link.formatTally := rfl
@[simp] theorem State.answered_link_overrunTally (s : State) (r : RequestName) (n : Word16) (x : Reply) :
    (s.answered r n x).link.overrunTally = s.link.overrunTally := rfl
@[simp] theorem State.answered_link_silenceStart (s : State) (r : RequestName) (n : Word16) (x : Reply) :
    (s.answered r n x).link.silenceStart = s.link.silenceStart := rfl
@[simp] theorem State.answered_link_newRate (s : State) (r : RequestName) (n : Word16) (x : Reply) :
    (s.answered r n x).link.newRate = s.link.newRate := rfl
@[simp] theorem State.answered_link_restartDue (s : State) (r : RequestName) (n : Word16) (x : Reply) :
    (s.answered r n x).link.restartDue = s.link.restartDue := rfl

/-! ## The five steps of R179 -/

/-- Handing a frame to the transmit side touches its two places and the instant of a beginning alone. -/
theorem transmit_eq_handed (f : LinkFrame) (s : State) : transmit f s = s.handed f := by
  unfold transmit State.handed
  cases h : s.link.sending <;> simp [beginSending, State.setLink, h]

/-- A request that answers has its record replaced and its response handed over. -/
theorem respond_eq_answered (code : Byte) (num : Word16) (x : Reply) (s : State) :
    respond code num x s = s.answeredCode code num x := by
  simp [respond, transmit_eq_handed, State.answeredCode, responseFrame, classResponse, State.setLink]

/-- A frame that is taken leaves the buffer. -/
theorem admitFrame_taken {f : RequestFrame} {s : State} (h : Taken f s) : admitFrame f s = some s.taken := by
  obtain ⟨-, hf, hb⟩ := h
  unfold admitFrame
  cases hl : s.link.buffer with
  | nil => simp [hl] at hb
  | cons g rest =>
    have : g = f := by simpa [hl] using hb
    simp [hf, this, State.taken, hl, State.setLink]

/-- A frame that comes to an empty buffer is taken as one that has arrived there (log 4). -/
theorem takeFrame_arrived {f : RequestFrame} {act : State → State × Reply} {s : State} (hr : s.inReset = false)
    (hf : s.link.responseInHand = false) (hb : s.link.buffer = []) : takeFrame f act s = takeFrame f act (s.arrived f) := by
  have free : (s.arrived f).link.responseInHand = false := hf
  have here : admitFrame f (s.arrived f) = some (validFrame s) := by
    simp only [admitFrame, free]
    simp [State.arrived, validFrame, deactivate, State.setLink, State.setConds, ConditionSet.put, ConditionSet.get, hb]
  have there : admitFrame f s = some (validFrame s) := by simp [admitFrame, hf, hb]
  have running : (s.arrived f).inReset = false := hr
  simp only [takeFrame, unlessInReset_running hr, unlessInReset_running running, here, there]

/-- A frame that must wait is not taken. -/
theorem admitFrame_waits {f : RequestFrame} {s : State}
    (h : s.link.responseInHand = true ∨ ∃ g rest, s.link.buffer = g :: rest ∧ g ≠ f) : admitFrame f s = none := by
  unfold admitFrame
  rcases h with h | ⟨g, rest, hb, hg⟩
  · simp [h]
  · by_cases hr : s.link.responseInHand = true <;> simp [hr, hb, hg]

/-- A request that cannot be taken changes nothing. -/
theorem takeFrame_waits {f : RequestFrame} {act : State → State × Reply} {s : State}
    (h : s.link.responseInHand = true ∨ ∃ g rest, s.link.buffer = g :: rest ∧ g ≠ f) : takeFrame f act s = s := by
  unfold takeFrame unlessInReset
  split
  · rfl
  · simp [admitFrame_waits h]

/-- A repeat hands the stored response over again and does nothing else. -/
theorem takeFrame_repeat {f : RequestFrame} {act : State → State × Reply} {s : State} {l : LastRequest}
    (h : Taken f s) (hl : s.link.lastRequest = some l) (hr : l.repeats f.code f.num = true) :
    takeFrame f act s = s.taken.handed l.response := by
  simp [takeFrame, h.running, admitFrame_taken h, hl, hr, transmit_eq_handed]

/-- A request that is no repeat is performed and answered. -/
theorem takeFrame_fresh {f : RequestFrame} {act : State → State × Reply} {s : State} (h : TakenFresh f s) :
    takeFrame f act s = (act s.taken).1.answeredCode f.code f.num (act s.taken).2 := by
  simp only [takeFrame, unlessInReset_running h.running, admitFrame_taken h.toTaken, State.taken_link_lastRequest]
  cases hl : s.link.lastRequest with
  | none => simp [performRequest, respond_eq_answered]
  | some l => simp [h.fresh l hl, performRequest, respond_eq_answered]

/-- A request of an allowed length in a mode that takes it goes to its owner. -/
theorem takeRequest_owner {r : RequestName} {num : Word16} {p : List Byte} {owner : State → State × Reply} {s : State}
    (h : TakenFresh (requestFrame r num p) s) (hl : lengthAllowed r p.length = true)
    (hm : modeRefusal r s.sched.mode = none) :
    takeRequest r num p owner s = (owner s.taken).1.answered r num (owner s.taken).2 := by
  have e := takeFrame_fresh (act := requestSteps r p owner) h
  simpa [takeRequest, requestSteps, hl, hm, State.answered, requestFrame] using e

/-- A request of a length that is not allowed is answered BAD_LENGTH. -/
theorem takeRequest_badLength {r : RequestName} {num : Word16} {p : List Byte} {owner : State → State × Reply}
    {s : State} (h : TakenFresh (requestFrame r num p) s) (hl : lengthAllowed r p.length = false) :
    takeRequest r num p owner s = s.onlyAnswered r num (.plain .badLength) := by
  have e := takeFrame_fresh (act := requestSteps r p owner) h
  simpa [takeRequest, requestSteps, hl, State.onlyAnswered, State.answered, requestFrame] using e

/-- A request that the mode refuses is answered as R181 says. -/
theorem takeRequest_modeRefused {r : RequestName} {num : Word16} {p : List Byte} {owner : State → State × Reply}
    {s : State} {e : Result} (h : TakenFresh (requestFrame r num p) s) (hl : lengthAllowed r p.length = true)
    (hm : modeRefusal r s.sched.mode = some e) :
    takeRequest r num p owner s = s.onlyAnswered r num (.plain e) := by
  have e' := takeFrame_fresh (act := requestSteps r p owner) h
  simpa [takeRequest, requestSteps, hl, hm, State.onlyAnswered, State.answered, requestFrame] using e'

/-! ## TXD (R172, R183) -/

/-- A byte on the link takes ten bit periods. -/
@[simp] theorem uartByte_length (b : Byte) : (uartByte b).length = 10 := by simp [uartByte]

/-- R172: a receiver reads the byte that was sent. -/
theorem uartRead_uartByte (b : Byte) : uartRead (uartByte b) = some b := by
  revert b
  decide +kernel

/-- Bytes sent back to back take ten bit periods each. -/
theorem flatMap_uartByte_length (bs : List Byte) : (bs.flatMap uartByte).length = 10 * bs.length := by
  induction bs with
  | nil => rfl
  | cons b bs ih => simp [ih]; omega

/-- Of bytes sent back to back, bit k of the byte in place i. -/
theorem flatMap_uartByte_getElem? (bs : List Byte) (i k : Nat) (b : Byte) (hb : bs[i]? = some b) (hk : k < 10) :
    (bs.flatMap uartByte)[10 * i + k]? = (uartByte b)[k]? := by
  induction bs generalizing i with
  | nil => simp at hb
  | cons c bs ih =>
    rw [List.flatMap_cons]
    cases i with
    | zero =>
      cases Option.some.inj hb
      rw [Nat.mul_zero, Nat.zero_add, List.getElem?_append_left (by simp [hk])]
    | succ i =>
      rw [List.getElem?_append_right (by simp; omega)]
      have : 10 * (i + 1) + k - (uartByte c).length = 10 * i + k := by simp; omega
      rw [this]
      exact ih i hb

/-- The 8 bytes of the envelope and the payload are on the link (R174). -/
theorem LinkFrame.bits_length (f : LinkFrame) : f.bits.length = (f.payload.length + 8) * 10 := by
  simp [LinkFrame.bits, LinkFrame.bytes, LinkFrame.inner, crcBytes, be16]
  omega

/-- R172: when the last stop bit has left TXD. -/
theorem reach_frameEnd (f : LinkFrame) (s : State) : s.reach (s.frameEnd f) = { s with now := s.leftTxd f } := by
  simp [State.reach, State.frameEnd, State.leftTxd, linkClocks, LinkFrame.bits_length, State.setNow]

/-- R172: TXD rests high. -/
theorem txd_rest {s : State} (h : s.link.sending = none) : s.txd = true := by simp [State.txd, h]

/-- R183: a frame that is not a response leaves the side to the waiting response and changes nothing else. -/
theorem finishFrame_report {f : LinkFrame} {s : State} (h : s.link.sending = some f) (hf : f.cls ≠ classResponse) :
    finishFrame s = { s with
      now := s.leftTxd f
      link := { s.link with
        sending := s.link.waiting, waiting := none
        sendingSince := if s.link.waiting = none then s.link.sendingSince else s.leftTxd f } } := by
  simp only [finishFrame, h, reach_frameEnd, if_neg hf]
  cases hw : s.link.waiting <;> simp [startWaiting, beginSending, State.setLink]

end Sys2Proof.Machine
end

