-- ==== Sys2Proof/Laws/Operands.lean ====
section
/-! SUPPORT. Numbers and bytes go over into each other as R191 says, and the frame check accepts what it made (R159). -/

namespace Sys2Proof.Machine

/-! ## Bytes of numbers -/

/-- One byte spells the number modulo 256. -/
@[simp] theorem ofBytes_byteOf (n : Nat) : ofBytes [byteOf n] = n % 256 := by simp [ofBytes, byteOf]

/-- Two bytes spell the number modulo 65536. -/
@[simp] theorem ofBytes_be16 (n : Nat) : ofBytes (be16 n) = n % 65536 := by
  simp [ofBytes, be16, byteOf]
  omega

/-- Four bytes spell the number modulo 2 to the power 32. -/
@[simp] theorem ofBytes_be32 (n : Nat) : ofBytes (be32 n) = n % 4294967296 := by
  simp [ofBytes, be32, byteOf]
  omega

/-- A two-byte field is two bytes long. -/
@[simp] theorem length_be16 (n : Nat) : (be16 n).length = 2 := rfl

/-- A four-byte field is four bytes long. -/
@[simp] theorem length_be32 (n : Nat) : (be32 n).length = 4 := rfl

/-- An identity is eight bytes long. -/
@[simp] theorem length_identityBytes (i : Identity) : (identityBytes i).length = 8 := rfl

/-- The byte of a small number. -/
theorem toNat_byteOf {n : Nat} (h : n < 256) : (byteOf n).toNat = n := by
  simp only [byteOf, BitVec.toNat_ofNat]
  omega

/-- An identity is read back from its bytes. -/
@[simp] theorem identityOf_identityBytes (i : Identity) : identityOf (identityBytes i) = i := by
  rcases i with ⟨m, o, s⟩
  have h (x y : Nat) (bs : List Byte) : (be16 x ++ be16 y ++ bs).take 2 = be16 x ∧
      ((be16 x ++ be16 y ++ bs).drop 2).take 2 = be16 y ∧ (be16 x ++ be16 y ++ bs).drop 4 = bs :=
    ⟨rfl, rfl, rfl⟩
  have hs := (h m.toNat o.toNat (be32 s.toNat))
  have h4 : (be32 s.toNat).take 4 = be32 s.toNat := rfl
  simp only [identityOf, identityBytes, hs.1, hs.2.1, hs.2.2, h4, ofBytes_be16, ofBytes_be32, Identity.mk.injEq]
  refine ⟨?_, ?_, ?_⟩ <;> apply BitVec.eq_of_toNat_eq <;> simp <;> omega

/-! ## The frame check (R159) -/

/-- The register after two runs of bytes. -/
@[simp] theorem crcRegister_append (xs ys : List Byte) : crcRegister (xs ++ ys) = ys.foldl crcByte (crcRegister xs) := by
  simp [crcRegister]

end Sys2Proof.Machine
end

