-- ==== Sys2Proof/Laws/Ops.lean ====
section
/-! SUPPORT. What the shared operations of Machine/Ops.lean can do, said once each. -/

namespace Sys2Proof.Machine

/-! ## One action for each item -/

/-- No item, no action. -/
@[simp] theorem overAll_nil {α : Type} (f : α → State → State) (s : State) : overAll [] f s = s := rfl

/-- The first item's action, then the rest's. -/
@[simp] theorem overAll_cons {α : Type} (x : α) (xs : List α) (f : α → State → State) (s : State) :
    overAll (x :: xs) f s = overAll xs f (f x s) := rfl

/-- What each action keeps, all of them keep. -/
theorem overAll_keeps {α : Type} {P : State → Prop} {f : α → State → State} {xs : List α} {s : State} (h : P s)
    (hf : ∀ x ∈ xs, ∀ t, P t → P (f x t)) : P (overAll xs f s) := by
  induction xs generalizing s with
  | nil => exact h
  | cons x xs ih => exact ih (hf x List.mem_cons_self s h) fun y hy => hf y (List.mem_cons_of_mem x hy)

/-- One action for each line, each on its own line alone: every line ends as its own action leaves it. -/
theorem overAll_lines {f : Fin 8 → State → State} {s : State}
    (other : ∀ i j t, j ≠ i → (f i t).lines.records[j] = t.lines.records[j] ∧ (f i t).lines.pins[j] = t.lines.pins[j])
    (own : ∀ i (t : State), t.lines.records[i] = s.lines.records[i] → t.lines.pins[i] = s.lines.pins[i] →
      (f i t).lines.records[i] = (f i s).lines.records[i] ∧ (f i t).lines.pins[i] = (f i s).lines.pins[i]) (i : Fin 8) :
    (overAll allLines f s).lines.records[i] = (f i s).lines.records[i] ∧
      (overAll allLines f s).lines.pins[i] = (f i s).lines.pins[i] := by
  have go : ∀ (xs : List (Fin 8)) (t : State), xs.Nodup →
      (i ∉ xs → (overAll xs f t).lines.records[i] = t.lines.records[i] ∧
        (overAll xs f t).lines.pins[i] = t.lines.pins[i]) ∧
      (i ∈ xs → t.lines.records[i] = s.lines.records[i] → t.lines.pins[i] = s.lines.pins[i] →
        (overAll xs f t).lines.records[i] = (f i s).lines.records[i] ∧
          (overAll xs f t).lines.pins[i] = (f i s).lines.pins[i]) := by
    intro xs
    induction xs with
    | nil => intro t _; exact ⟨fun _ => ⟨rfl, rfl⟩, by simp⟩
    | cons x xs ih =>
      intro t hn
      obtain ⟨hx, hn⟩ := List.nodup_cons.1 hn
      rw [overAll_cons]
      obtain ⟨h1, h2⟩ := ih (f x t) hn
      refine ⟨fun hi => ?_, fun hi hr hp => ?_⟩
      · obtain ⟨hix, hi⟩ := not_or.1 (List.mem_cons.not.1 hi)
        obtain ⟨o1, o2⟩ := other x i t hix
        exact ⟨(h1 hi).1.trans o1, (h1 hi).2.trans o2⟩
      · by_cases hix : i = x
        · subst hix
          obtain ⟨o1, o2⟩ := own i t hr hp
          exact ⟨(h1 hx).1.trans o1, (h1 hx).2.trans o2⟩
        · obtain ⟨o1, o2⟩ := other x i t hix
          exact h2 ((List.mem_cons.1 hi).resolve_left hix) (o1.trans hr) (o2.trans hp)
  exact (go allLines s (by decide)).2 (by fin_cases i <;> decide) rfl rfl

/-! ## The clock -/

/-- Reaching an instant moves the clock alone, and never back. -/
theorem reach_eq (s : State) (t : Nat) : s.reach t = { s with now := max s.now t } := rfl

/-- The clock never turns back. -/
theorem now_le_reach (s : State) (t : Nat) : s.now ≤ (s.reach t).now := Nat.le_max_left _ _

/-! ## Conditions (R138) -/

/-- What `put` wrote is read back, and every other condition is as before. -/
@[simp] theorem get_put (c : ConditionSet) (n m : ConditionName) (x : Condition) :
    (c.put n x).get m = if m = n then x else c.get m := by
  cases n <;> cases m <;> rfl

/-- R138: an activated condition is active, and latched if it was not active before. -/
theorem activate_eq (n : ConditionName) (s : State) :
    activate n s = s.setConds
      (s.conds.put n { active := true, latched := (s.conds.get n).latched || !(s.conds.get n).active }) := by
  have self : ∀ c : ConditionSet, c.put n (c.get n) = c := by intro c; cases n <;> rfl
  unfold activate
  by_cases h : (s.conds.get n).active = true
  · have : ({ active := true, latched := (s.conds.get n).latched } : Condition) = s.conds.get n := by
      rw [← h]
    simp [h, this, self]
  · simp [h]

/-- R138: a deactivated condition keeps its latched flag. -/
theorem deactivate_eq (n : ConditionName) (s : State) :
    deactivate n s = s.setConds (s.conds.put n { active := false, latched := (s.conds.get n).latched }) := rfl

/-! ## The report queue (R123-R127) -/

/-- R125: a report posted to a queue with room joins the tail. -/
theorem postReport_room {r : Report} {s : State} (h : s.reports.places < 32) :
    postReport r s = s.setReports { s.reports with unsent := s.reports.unsent ++ [r] } := by
  simp [postReport, State.canReserve, h, Config.reportPlaces]

/-- R126: a report posted to a full queue displaces the newest entry of the lowest level below its own, or is discarded;
either way one loss is counted and REPORT_LOSS is active. -/
theorem postReport_full {r : Report} {s : State} (h : 32 ≤ s.reports.places) :
    ∃ us, postReport r s = activate .reportLoss
        (s.setReports { s.reports with unsent := us, lossTally := min 65535 (s.reports.lossTally + 1) }) ∧
      (us = s.reports.unsent ∨
        ∃ l, lowestCandidate r.level s.reports.unsent = some l ∧
          us = eraseNewest (fun e => displaceable r.level e && e.level == l) s.reports.unsent ++ [r]) := by
  have hc : s.canReserve = false := decide_eq_false (Nat.not_lt.2 h)
  unfold postReport
  cases hl : lowestCandidate r.level s.reports.unsent with
  | none => exact ⟨s.reports.unsent, by simp [hc, countLoss], .inl rfl⟩
  | some l => exact ⟨_, by simp [hc, countLoss], .inr ⟨l, rfl, rfl⟩⟩

/-- R125: raising a report touches the UNSENT entries, the loss tally and REPORT_LOSS alone. -/
theorem raiseReport_frame (k : ReportKind) (body : List Byte) (s : State) :
    ∃ us n c, raiseReport k body s =
      { s with reports := { s.reports with unsent := us, lossTally := n }, conds := { s.conds with reportLoss := c } } := by
  unfold raiseReport
  split
  · exact ⟨_, _, _, rfl⟩
  · split
    · exact ⟨_, _, _, rfl⟩
    · by_cases h : s.reports.places < 32
      · rw [postReport_room h]
        exact ⟨_, _, _, rfl⟩
      · obtain ⟨us, he, -⟩ := postReport_full (r := { kind := k, level := s.reports.levelOf k, body := body
                                                      reserved := false }) (Nat.le_of_not_lt h)
        rw [he, activate_eq]
        exact ⟨_, _, _, rfl⟩

/-- R125: in a queue with room a report joins the tail at its kind's level, none at level 0; POINT_CHANGED apart, which may
rewrite an entry instead (R85). -/
theorem raiseReport_room {k : ReportKind} {body : List Byte} {s : State} (h : s.reports.places < 32)
    (hk : k ≠ .pointChanged) :
    raiseReport k body s = s.setReports { s.reports with unsent := s.reports.unsent ++
      (if s.reports.levelOf k = 0 then []
       else [{ kind := k, level := s.reports.levelOf k, body := body, reserved := false }]) } := by
  unfold raiseReport
  split
  · simp [State.setReports]
  · simp [hk, postReport_room h]

/-- R111, R124: settling a message moves one reservation into an entry and takes the message away. -/
theorem settleMessage_eq (m : Message) (o : MessageOutcome) (extra : List Byte) (s : State) :
    settleMessage m o extra s =
      { s with
        reports := { s.reports with
          unsent := s.reports.unsent ++
            [{ kind := .messageOutcome, level := s.reports.levelOf .messageOutcome, body := outcomeBody m o extra
               reserved := true }]
          reservations := s.reports.reservations - 1 }
        outbound := s.outbound.eraseP fun x => x.tag == m.tag } := rfl

/-- R127: a freed place changes nothing when no report has been lost. -/
theorem overflowIfDue_none {s : State} (h : s.reports.lossTally = 0) : overflowIfDue s = s := by
  simp [overflowIfDue, h]

/-- R127: with a place free, the OVERFLOW report joins the tail, the tally is emptied and REPORT_LOSS ends. -/
theorem overflowIfDue_room {s : State} (h : 0 < s.reports.lossTally) (hp : s.reports.places < 32) :
    overflowIfDue s =
      { s with
        reports := { s.reports with
          unsent := s.reports.unsent ++ [{ kind := .overflow, level := s.reports.levelOf .overflow
                                           body := be16 s.reports.lossTally, reserved := false }]
          lossTally := 0 }
        conds := { s.conds with reportLoss := { s.conds.reportLoss with active := false } } } := by
  have : s.canReserve = true := decide_eq_true hp
  simp [overflowIfDue, Nat.pos_iff_ne_zero.1 h, this, deactivate, State.setReports, State.setConds, ConditionSet.put,
    ConditionSet.get]

/-! ## Roster entries (R46) -/

/-- Outside 1..62 there is no entry but a VACANT one. -/
theorem entry_outside {s : State} {a : Nat} (h : a = 0 ∨ 62 < a) : s.entry a = .vacant := by
  unfold State.entry
  rcases h with h | h
  · simp [h]
  · have : ¬ a - 1 < 62 := by omega
    simp [this]

/-- The entry written is read back; every other entry is as before. -/
theorem entry_setEntry (s : State) (a b : Nat) (e : RosterEntry) :
    (s.setEntry a e).entry b = if b = a ∧ 1 ≤ a ∧ a ≤ 62 then e else s.entry b := by
  unfold State.setEntry
  by_cases ha : a = 0
  · simp [ha]
  · by_cases hb : b = 0
    · have : ¬ b = a := by omega
      simp [State.entry, hb, Ne.symm ha]
    · by_cases hab : b = a
      · subst hab
        by_cases h62 : b ≤ 62
        · have : b - 1 < 62 := by omega
          simp [State.entry, ha, h62, this, Nat.one_le_iff_ne_zero]
        · have : ¬ b - 1 < 62 := by omega
          simp [State.entry, ha, h62, this]
      · have h1 : a - 1 ≠ b - 1 := by omega
        simp [State.entry, ha, hb, hab, h1]

/-- Writing an entry touches the roster alone. -/
theorem setEntry_frame (s : State) (a : Nat) (e : RosterEntry) :
    s.setEntry a e = { s with roster := (s.setEntry a e).roster } := by
  unfold State.setEntry
  split <;> rfl

/-! ## Local lines (R143) -/

/-- The record written is read back; every other line is as before. -/
theorem putLine_records (i j : Fin 8) (r : LineRecord) (s : State) :
    (putLine i r s).lines.records[j] = if j = i then r else s.lines.records[j] := by
  by_cases h : j = i
  · simp [putLine, h]
  · have : i.val ≠ j.val := fun e => h (Fin.ext e.symm)
    simp [putLine, h, this]

/-- A pin changes only where the line drives another level than before. -/
theorem putLine_pins (i j : Fin 8) (r : LineRecord) (s : State) :
    (putLine i r s).lines.pins[j] =
      if j = i ∧ r.drive ≠ s.lines.records[i].drive then r.drive.getD s.lines.pins[i] else s.lines.pins[j] := by
  by_cases h : j = i
  · subst h
    by_cases hd : r.drive = s.lines.records[j].drive <;> simp [putLine, hd]
  · have : i.val ≠ j.val := fun e => h (Fin.ext e.symm)
    simp [putLine, h, this]

/-- Writing a line touches the local lines alone. -/
theorem putLine_frame (i : Fin 8) (r : LineRecord) (s : State) :
    putLine i r s = { s with lines := (putLine i r s).lines } := rfl

/-- Changing an INPUT line's fields touches no pin. -/
theorem changeInput_pins (i : Fin 8) (f : InputLine → InputLine) (s : State) :
    (changeInput i f s).lines.pins = s.lines.pins := by
  unfold changeInput
  split
  · rename_i l h
    simp [putLine, LineRecord.drive, h]
  · rfl

/-- Changing an INPUT line's fields. -/
theorem changeInput_input {i : Fin 8} {l : InputLine} {s : State} (f : InputLine → InputLine)
    (h : s.lines.records[i] = .input l) :
    changeInput i f s = { s with lines := { s.lines with records := s.lines.records.set i (.input (f l)) } } := by
  simp only [changeInput, h]
  simp [putLine, LineRecord.drive, h, State.setLines]

/-- A line that is no INPUT line is left alone. -/
theorem changeInput_other {i : Fin 8} {s : State} (f : InputLine → InputLine)
    (h : ∀ l, s.lines.records[i] ≠ .input l) : changeInput i f s = s := by
  unfold changeInput
  split
  · rename_i l hl
    exact absurd hl (h l)
  · rfl

/-! ## The point cache (R70) -/

/-- A record found by its key has that key and stands in the cache. -/
theorem point_some {s : State} {k : Key} {p : Point} (h : s.point k = some p) : p.key = k ∧ p ∈ s.points :=
  ⟨by simpa using List.find?_some h, List.mem_of_find?_eq_some h⟩

/-- Where keys are distinct, a record is found by its own key. -/
theorem point_of_mem {s : State} {p : Point} (hd : (s.points.map (·.key)).Nodup) (hp : p ∈ s.points) :
    s.point p.key = some p := by
  unfold State.point
  induction hs : s.points generalizing s with
  | nil => simp [hs] at hp
  | cons q qs ih =>
    rw [hs] at hd hp
    simp only [List.map_cons, List.nodup_cons] at hd
    by_cases hq : q.key = p.key
    · have : p = q := by
        rcases List.mem_cons.1 hp with h | h
        · exact h
        · exact absurd (hq ▸ List.mem_map_of_mem h) hd.1
      simp [this]
    · have hp' : p ∈ qs := by
        rcases List.mem_cons.1 hp with h | h
        · exact absurd (h ▸ rfl) hq
        · exact h
      have := ih (s := { s with points := qs }) hd.2 hp' rfl
      simpa [hq] using this

/-- Replacing a record keeps the keys. -/
@[simp] theorem replacePoint_keys (ps : List Point) (p : Point) :
    (replacePoint ps p).map (·.key) = ps.map (·.key) := by
  unfold replacePoint
  rw [List.map_map]
  apply List.map_congr_left
  intro q _
  by_cases h : q.key = p.key <;> simp [h]

/-! ## Messages (R103) -/

/-- A message found by its tag has that tag and is held. -/
theorem message_some {s : State} {t : Byte} {m : Message} (h : s.message t = some m) : m.tag = t ∧ m ∈ s.outbound :=
  ⟨by simpa using List.find?_some h, List.mem_of_find?_eq_some h⟩

/-- Changing a message changes the queue alone, and neither its length nor the tags when the change keeps the tag. -/
theorem changeMessage_tags (t : Byte) (f : Message → Message) (s : State) (hf : ∀ m, (f m).tag = m.tag) :
    (changeMessage t f s).outbound.map (·.tag) = s.outbound.map (·.tag) := by
  simp only [changeMessage, State.setOutbound, List.map_map]
  apply List.map_congr_left
  intro m _
  by_cases h : m.tag = t <;> simp [h, hf]

end Sys2Proof.Machine
end

