-- ==== Sys2Proof/WellFormed.lean ====
section
/-! DEFINITION. Which operands a command can carry at all: what a link frame, a slot record and a segment frame can hold.
The meanings are total and ask for none of this. -/

namespace Sys2Proof

/-- R174: a link frame carries at most 192 payload bytes. -/
def payloadFits (payload : List Byte) : Bool := decide (payload.length ≤ Config.maxPayload)

/-- R8: a slot's offset is a 16-bit field, at least 1. -/
def offsetFits (offset : Nat) : Bool := decide (1 ≤ offset) && decide (offset < 65536)

/-- R158, R163: the symbols of one frame: at most the 32 bit times before BODY, the 67th byte, and a delimiter. -/
def symbolsFit (symbols : List Symbol) : Bool := !symbols.isEmpty && decide (symbols.length ≤ 32 + 67 * 8 + 6)

/-- R162: the symbols of a start delimiter come within 32 bit times. -/
def delimiterFits (symbols : List Symbol) : Bool :=
  !symbols.isEmpty && decide (symbols.length ≤ Config.delimiterLimitBits)

/-- R175: a LEN that makes a format error is out of range. -/
def faultFits : LinkFault → Bool
  | .framing => true
  | .length b => decide (b.toNat < 4) || decide (196 < b.toNat)

/-- The operands of a command are ones the part can be shown. -/
def Instr.wf : Instr → Bool
  | .configure _ p | .readConfig _ p | .start _ p | .stop _ p | .addSlot _ p | .deleteSlot _ p | .clearShadow _ p
  | .copyActive _ p | .readSlots _ p | .swap _ p | .cancelSwap _ p | .admitStation _ p | .bar _ p | .unbar _ p
  | .provision _ p | .forget _ p | .readDevice _ p | .listDevices _ p | .declare _ p | .withdraw _ p
  | .readPoint _ p | .watch _ p | .send _ p | .cancel _ p | .listMessages _ p | .ackReports _ p
  | .resendReports _ p | .setLevel _ p | .readConditions _ p | .clearConditions _ p | .setLine _ p
  | .writeLine _ p | .readLines _ p | .identify _ p | .status _ p | .setLinkRate _ p | .restart _ p => payloadFits p
  | .unknownRequest code _ p => payloadFits p && !Machine.codeKnown code
  | .linkFrameReceived | .interByteTimeout | .linkFrameSent | .reportTaken | .linkRateChange | .softReset
  | .resetPinAsserted | .hardReset _ | .hostSilentTimeout | .boundary | .markStart | .slotStart | .stoppingEnd
  | .transmitStart | .waitingLineTimeout | .echoVerdict | .answerWindowExpired | .firstTransition
  | .startDelimiterTimeout | .lineQuiet | .turnaroundMet | .foreignTimeExpiry | .gapConsideration | .babbleDetected
  | .babbleEnd | .localLinePinChange _ _ | .inputFilterExpired _ | .linkByteReceived _ => true
  | .linkFormatError cause => faultFits cause
  | .slotDue offset | .slotLate offset => offsetFits offset
  | .segmentFrameReceived symbols => symbolsFit symbols
  | .startDelimiterCompleted symbols => delimiterFits symbols

end Sys2Proof
end

