-- ==== Sys2Proof/Laws/PerInstr.lean ====
section
/-! SUPPORT. Per command: what well-formedness says of its operands (R8, R158, R162, R174, R175). -/

namespace Sys2Proof.Laws.OperandsFit

open Sys2Proof

/-- R174: the payload a command's frame carries, if it carries one. -/
def payloadOf : Instr → Option (List Byte)
  | .configure _ payload | .readConfig _ payload | .start _ payload | .stop _ payload | .addSlot _ payload |
    .deleteSlot _ payload | .clearShadow _ payload | .copyActive _ payload | .readSlots _ payload |
    .swap _ payload | .cancelSwap _ payload | .admitStation _ payload | .bar _ payload | .unbar _ payload |
    .provision _ payload | .forget _ payload | .readDevice _ payload | .listDevices _ payload | .declare _ payload |
    .withdraw _ payload | .readPoint _ payload | .watch _ payload | .send _ payload | .cancel _ payload |
    .listMessages _ payload | .ackReports _ payload | .resendReports _ payload | .setLevel _ payload |
    .readConditions _ payload | .clearConditions _ payload | .setLine _ payload | .writeLine _ payload |
    .readLines _ payload | .identify _ payload | .status _ payload | .setLinkRate _ payload | .restart _ payload |
    .unknownRequest _ _ payload => some payload
  | .linkFrameReceived | .linkFormatError _ | .interByteTimeout | .linkFrameSent | .reportTaken | .linkRateChange |
    .softReset | .resetPinAsserted | .hardReset _ | .hostSilentTimeout | .boundary | .markStart | .slotDue _ |
    .slotStart | .slotLate _ | .stoppingEnd | .transmitStart | .waitingLineTimeout | .echoVerdict |
    .answerWindowExpired | .firstTransition | .segmentFrameReceived _ | .startDelimiterTimeout | .lineQuiet |
    .turnaroundMet | .foreignTimeExpiry | .gapConsideration | .babbleDetected | .babbleEnd |
    .localLinePinChange _ _ | .inputFilterExpired _ | .startDelimiterCompleted _ | .linkByteReceived _ => none

/-- R8: the slot offset a command names, if it names one. -/
def offsetOf : Instr → Option Nat
  | .slotDue offset | .slotLate offset => some offset
  | .configure _ _ | .readConfig _ _ | .start _ _ | .stop _ _ | .addSlot _ _ | .deleteSlot _ _ | .clearShadow _ _ |
    .copyActive _ _ | .readSlots _ _ | .swap _ _ | .cancelSwap _ _ | .admitStation _ _ | .bar _ _ | .unbar _ _ |
    .provision _ _ | .forget _ _ | .readDevice _ _ | .listDevices _ _ | .declare _ _ | .withdraw _ _ |
    .readPoint _ _ | .watch _ _ | .send _ _ | .cancel _ _ | .listMessages _ _ | .ackReports _ _ |
    .resendReports _ _ | .setLevel _ _ | .readConditions _ _ | .clearConditions _ _ | .setLine _ _ |
    .writeLine _ _ | .readLines _ _ | .identify _ _ | .status _ _ | .setLinkRate _ _ | .restart _ _ |
    .unknownRequest _ _ _ | .linkFrameReceived | .linkFormatError _ | .interByteTimeout | .linkFrameSent |
    .reportTaken | .linkRateChange | .softReset | .resetPinAsserted | .hardReset _ | .hostSilentTimeout |
    .boundary | .markStart | .slotStart | .stoppingEnd | .transmitStart | .waitingLineTimeout | .echoVerdict |
    .answerWindowExpired | .firstTransition | .segmentFrameReceived _ | .startDelimiterTimeout | .lineQuiet |
    .turnaroundMet | .foreignTimeExpiry | .gapConsideration | .babbleDetected | .babbleEnd |
    .localLinePinChange _ _ | .inputFilterExpired _ | .startDelimiterCompleted _ | .linkByteReceived _ => none

/-- R157: the symbols a command shows the receiver, if any. -/
def symbolsOf : Instr → Option (List Symbol)
  | .segmentFrameReceived symbols | .startDelimiterCompleted symbols => some symbols
  | .configure _ _ | .readConfig _ _ | .start _ _ | .stop _ _ | .addSlot _ _ | .deleteSlot _ _ | .clearShadow _ _ |
    .copyActive _ _ | .readSlots _ _ | .swap _ _ | .cancelSwap _ _ | .admitStation _ _ | .bar _ _ | .unbar _ _ |
    .provision _ _ | .forget _ _ | .readDevice _ _ | .listDevices _ _ | .declare _ _ | .withdraw _ _ |
    .readPoint _ _ | .watch _ _ | .send _ _ | .cancel _ _ | .listMessages _ _ | .ackReports _ _ |
    .resendReports _ _ | .setLevel _ _ | .readConditions _ _ | .clearConditions _ _ | .setLine _ _ |
    .writeLine _ _ | .readLines _ _ | .identify _ _ | .status _ _ | .setLinkRate _ _ | .restart _ _ |
    .unknownRequest _ _ _ | .linkFrameReceived | .linkFormatError _ | .interByteTimeout | .linkFrameSent |
    .reportTaken | .linkRateChange | .softReset | .resetPinAsserted | .hardReset _ | .hostSilentTimeout |
    .boundary | .markStart | .slotDue _ | .slotStart | .slotLate _ | .stoppingEnd | .transmitStart |
    .waitingLineTimeout | .echoVerdict | .answerWindowExpired | .firstTransition | .startDelimiterTimeout |
    .lineQuiet | .turnaroundMet | .foreignTimeExpiry | .gapConsideration | .babbleDetected | .babbleEnd |
    .localLinePinChange _ _ | .inputFilterExpired _ | .linkByteReceived _ => none

/-- What a well-formed command's operands satisfy: its frame's LEN is in range (R175), its offset is one a slot can have
(R8), and its symbols are some and no more than one frame has before its verdict (R158, R162, R163). -/
def Statement (i : Instr) : Prop :=
  i.wf = true →
    (∀ p, payloadOf i = some p → Machine.lenInRange (Machine.byteOf (p.length + 4)) = true) ∧
    (∀ o, offsetOf i = some o → 1 ≤ o ∧ o ≤ 65535) ∧
    ∀ x, symbolsOf i = some x → x ≠ [] ∧ x.length ≤ 574

/-- R174, R175: a payload that fits makes a LEN in range. -/
theorem len_of_fits {p : List Byte} (h : payloadFits p = true) :
    Machine.lenInRange (Machine.byteOf (p.length + 4)) = true := by
  have hp : p.length ≤ 192 := by simpa [payloadFits, Config.maxPayload] using h
  have : (Machine.byteOf (p.length + 4)).toNat = p.length + 4 := by
    simp only [Machine.byteOf, BitVec.toNat_ofNat]
    omega
  simp only [Machine.lenInRange, this, Bool.and_eq_true, decide_eq_true_eq]
  omega

/-- A command with a payload and no other operand that needs a bound. -/
theorem of_payload {i : Instr} {p : List Byte} (hp : payloadOf i = some p) (ho : offsetOf i = none)
    (hs : symbolsOf i = none) (hw : i.wf = true → payloadFits p = true) : Statement i := by
  refine fun h => ⟨fun q hq => ?_, fun o hq => ?_, fun x hq => ?_⟩
  · cases hp.symm.trans hq
    exact len_of_fits (hw h)
  · cases ho.symm.trans hq
  · cases hs.symm.trans hq

/-- A command without operands that need a bound. -/
theorem of_none {i : Instr} (hp : payloadOf i = none) (ho : offsetOf i = none) (hs : symbolsOf i = none) :
    Statement i :=
  fun _ => ⟨fun _ hq => absurd (hp.symm.trans hq) (by simp), fun _ hq => absurd (ho.symm.trans hq) (by simp),
    fun _ hq => absurd (hs.symm.trans hq) (by simp)⟩

/-- A command that names a slot's offset. -/
theorem of_offset {i : Instr} {o : Nat} (hp : payloadOf i = none) (ho : offsetOf i = some o) (hs : symbolsOf i = none)
    (hw : i.wf = true → offsetFits o = true) : Statement i := by
  refine fun h => ⟨fun q hq => ?_, fun p hq => ?_, fun x hq => ?_⟩
  · cases hp.symm.trans hq
  · cases ho.symm.trans hq
    have := hw h
    simp only [offsetFits, Bool.and_eq_true, decide_eq_true_eq] at this
    omega
  · cases hs.symm.trans hq

/-- A command that shows the receiver symbols. -/
theorem of_symbols {i : Instr} {x : List Symbol} (hp : payloadOf i = none) (ho : offsetOf i = none)
    (hs : symbolsOf i = some x) (hw : i.wf = true → x ≠ [] ∧ x.length ≤ 574) : Statement i := by
  refine fun h => ⟨fun q hq => ?_, fun p hq => ?_, fun y hq => ?_⟩
  · cases hp.symm.trans hq
  · cases ho.symm.trans hq
  · cases hs.symm.trans hq
    exact hw h

theorem configure (num : Word16) (payload : List Byte) : Statement (.configure num payload) :=
  of_payload rfl rfl rfl id

theorem readConfig (num : Word16) (payload : List Byte) : Statement (.readConfig num payload) :=
  of_payload rfl rfl rfl id

theorem start (num : Word16) (payload : List Byte) : Statement (.start num payload) := of_payload rfl rfl rfl id
theorem stop (num : Word16) (payload : List Byte) : Statement (.stop num payload) := of_payload rfl rfl rfl id
theorem addSlot (num : Word16) (payload : List Byte) : Statement (.addSlot num payload) := of_payload rfl rfl rfl id
theorem deleteSlot (num : Word16) (payload : List Byte) : Statement (.deleteSlot num payload) :=
  of_payload rfl rfl rfl id

theorem clearShadow (num : Word16) (payload : List Byte) : Statement (.clearShadow num payload) :=
  of_payload rfl rfl rfl id

theorem copyActive (num : Word16) (payload : List Byte) : Statement (.copyActive num payload) :=
  of_payload rfl rfl rfl id

theorem readSlots (num : Word16) (payload : List Byte) : Statement (.readSlots num payload) :=
  of_payload rfl rfl rfl id

theorem swap (num : Word16) (payload : List Byte) : Statement (.swap num payload) := of_payload rfl rfl rfl id
theorem cancelSwap (num : Word16) (payload : List Byte) : Statement (.cancelSwap num payload) :=
  of_payload rfl rfl rfl id

theorem admitStation (num : Word16) (payload : List Byte) : Statement (.admitStation num payload) :=
  of_payload rfl rfl rfl id

theorem bar (num : Word16) (payload : List Byte) : Statement (.bar num payload) := of_payload rfl rfl rfl id
theorem unbar (num : Word16) (payload : List Byte) : Statement (.unbar num payload) := of_payload rfl rfl rfl id
theorem provision (num : Word16) (payload : List Byte) : Statement (.provision num payload) :=
  of_payload rfl rfl rfl id

theorem forget (num : Word16) (payload : List Byte) : Statement (.forget num payload) := of_payload rfl rfl rfl id
theorem readDevice (num : Word16) (payload : List Byte) : Statement (.readDevice num payload) :=
  of_payload rfl rfl rfl id

theorem listDevices (num : Word16) (payload : List Byte) : Statement (.listDevices num payload) :=
  of_payload rfl rfl rfl id

theorem declare (num : Word16) (payload : List Byte) : Statement (.declare num payload) := of_payload rfl rfl rfl id
theorem withdraw (num : Word16) (payload : List Byte) : Statement (.withdraw num payload) := of_payload rfl rfl rfl id
theorem readPoint (num : Word16) (payload : List Byte) : Statement (.readPoint num payload) :=
  of_payload rfl rfl rfl id

theorem watch (num : Word16) (payload : List Byte) : Statement (.watch num payload) := of_payload rfl rfl rfl id
theorem send (num : Word16) (payload : List Byte) : Statement (.send num payload) := of_payload rfl rfl rfl id
theorem cancel (num : Word16) (payload : List Byte) : Statement (.cancel num payload) := of_payload rfl rfl rfl id
theorem listMessages (num : Word16) (payload : List Byte) : Statement (.listMessages num payload) :=
  of_payload rfl rfl rfl id

theorem ackReports (num : Word16) (payload : List Byte) : Statement (.ackReports num payload) :=
  of_payload rfl rfl rfl id

theorem resendReports (num : Word16) (payload : List Byte) : Statement (.resendReports num payload) :=
  of_payload rfl rfl rfl id

theorem setLevel (num : Word16) (payload : List Byte) : Statement (.setLevel num payload) := of_payload rfl rfl rfl id
theorem readConditions (num : Word16) (payload : List Byte) : Statement (.readConditions num payload) :=
  of_payload rfl rfl rfl id

theorem clearConditions (num : Word16) (payload : List Byte) : Statement (.clearConditions num payload) :=
  of_payload rfl rfl rfl id

theorem setLine (num : Word16) (payload : List Byte) : Statement (.setLine num payload) := of_payload rfl rfl rfl id
theorem writeLine (num : Word16) (payload : List Byte) : Statement (.writeLine num payload) :=
  of_payload rfl rfl rfl id

theorem readLines (num : Word16) (payload : List Byte) : Statement (.readLines num payload) :=
  of_payload rfl rfl rfl id

theorem identify (num : Word16) (payload : List Byte) : Statement (.identify num payload) := of_payload rfl rfl rfl id
theorem status (num : Word16) (payload : List Byte) : Statement (.status num payload) := of_payload rfl rfl rfl id
theorem setLinkRate (num : Word16) (payload : List Byte) : Statement (.setLinkRate num payload) :=
  of_payload rfl rfl rfl id

theorem restart (num : Word16) (payload : List Byte) : Statement (.restart num payload) := of_payload rfl rfl rfl id
theorem unknownRequest (code : Byte) (num : Word16) (payload : List Byte) : Statement (.unknownRequest code num payload) :=
  of_payload rfl rfl rfl fun h => (Bool.and_eq_true _ _ ▸ h).1

theorem linkFrameReceived : Statement .linkFrameReceived := of_none rfl rfl rfl
theorem linkFormatError (cause : LinkFault) : Statement (.linkFormatError cause) := of_none rfl rfl rfl
theorem interByteTimeout : Statement .interByteTimeout := of_none rfl rfl rfl
theorem linkFrameSent : Statement .linkFrameSent := of_none rfl rfl rfl
theorem reportTaken : Statement .reportTaken := of_none rfl rfl rfl
theorem linkRateChange : Statement .linkRateChange := of_none rfl rfl rfl
theorem softReset : Statement .softReset := of_none rfl rfl rfl
theorem resetPinAsserted : Statement .resetPinAsserted := of_none rfl rfl rfl
theorem hardReset (cause : HardCause) : Statement (.hardReset cause) := of_none rfl rfl rfl
theorem hostSilentTimeout : Statement .hostSilentTimeout := of_none rfl rfl rfl
theorem boundary : Statement .boundary := of_none rfl rfl rfl
theorem markStart : Statement .markStart := of_none rfl rfl rfl
theorem slotDue (offset : Nat) : Statement (.slotDue offset) := of_offset rfl rfl rfl id
theorem slotStart : Statement .slotStart := of_none rfl rfl rfl
theorem slotLate (offset : Nat) : Statement (.slotLate offset) := of_offset rfl rfl rfl id
theorem stoppingEnd : Statement .stoppingEnd := of_none rfl rfl rfl
theorem transmitStart : Statement .transmitStart := of_none rfl rfl rfl
theorem waitingLineTimeout : Statement .waitingLineTimeout := of_none rfl rfl rfl
theorem echoVerdict : Statement .echoVerdict := of_none rfl rfl rfl
theorem answerWindowExpired : Statement .answerWindowExpired := of_none rfl rfl rfl
theorem firstTransition : Statement .firstTransition := of_none rfl rfl rfl
theorem segmentFrameReceived (symbols : List Symbol) : Statement (.segmentFrameReceived symbols) :=
  of_symbols rfl rfl rfl fun h => by
    simpa [Instr.wf, symbolsFit] using h

theorem startDelimiterTimeout : Statement .startDelimiterTimeout := of_none rfl rfl rfl
theorem lineQuiet : Statement .lineQuiet := of_none rfl rfl rfl
theorem turnaroundMet : Statement .turnaroundMet := of_none rfl rfl rfl
theorem foreignTimeExpiry : Statement .foreignTimeExpiry := of_none rfl rfl rfl
theorem gapConsideration : Statement .gapConsideration := of_none rfl rfl rfl
theorem babbleDetected : Statement .babbleDetected := of_none rfl rfl rfl
theorem babbleEnd : Statement .babbleEnd := of_none rfl rfl rfl
theorem localLinePinChange (line : Fin 8) (level : Level) : Statement (.localLinePinChange line level) :=
  of_none rfl rfl rfl

theorem inputFilterExpired (line : Fin 8) : Statement (.inputFilterExpired line) := of_none rfl rfl rfl
theorem startDelimiterCompleted (symbols : List Symbol) : Statement (.startDelimiterCompleted symbols) :=
  of_symbols rfl rfl rfl fun h => by
    have : symbols ≠ [] ∧ symbols.length ≤ 32 := by simpa [Instr.wf, delimiterFits, Config.delimiterLimitBits] using h
    exact ⟨this.1, by omega⟩

theorem linkByteReceived (byte : Byte) : Statement (.linkByteReceived byte) := of_none rfl rfl rfl

end Sys2Proof.Laws.OperandsFit
end

