-- ==== Sys2Proof/Laws/Points.lean ====
section
/-! SUPPORT. What a happening at points does: the records, the reports it raises and the mirrored lines it tells
(R83-R86, R153), said once. -/

namespace Sys2Proof.Machine

/-! ## What raising reports and telling mirrors leave alone -/

/-- Reports may have been raised and nothing else has become of the report queue and the conditions. -/
structure RaisedOnly (s t : State) : Prop where
  sent : t.reports.sent = s.reports.sent
  reservations : t.reports.reservations = s.reports.reservations
  counter : t.reports.counter = s.reports.counter
  levels : t.reports.levels = s.reports.levels
  conds : t.conds = { s.conds with reportLoss := t.conds.reportLoss }

theorem RaisedOnly.refl (s : State) : RaisedOnly s s := ⟨rfl, rfl, rfl, rfl, rfl⟩

theorem RaisedOnly.trans {s t u : State} (h : RaisedOnly s t) (k : RaisedOnly t u) : RaisedOnly s u :=
  ⟨k.sent.trans h.sent, k.reservations.trans h.reservations, k.counter.trans h.counter, k.levels.trans h.levels, by
    rw [k.conds, h.conds]⟩

theorem MirrorsOnly.refl (s : State) : MirrorsOnly s s := fun _ _ => ⟨rfl, rfl⟩

theorem MirrorsOnly.trans {s t u : State} (h : MirrorsOnly s t) (k : MirrorsOnly t u) : MirrorsOnly s u := by
  intro i hi
  obtain ⟨h1, h2⟩ := h i hi
  obtain ⟨k1, k2⟩ := k i (by rw [h1]; exact hi)
  exact ⟨k1.trans h1, k2.trans h2⟩

/-- Of the whole part, only the point records, the report queue with REPORT_LOSS, and mirrored lines may have changed. -/
structure CacheOnly (s t : State) : Prop where
  rest : t = { s with points := t.points, reports := t.reports, conds := t.conds, lines := t.lines }
  raised : RaisedOnly s t
  mirrors : MirrorsOnly s t

theorem CacheOnly.refl (s : State) : CacheOnly s s := ⟨rfl, .refl s, .refl s⟩

theorem CacheOnly.trans {s t u : State} (h : CacheOnly s t) (k : CacheOnly t u) : CacheOnly s u := by
  refine ⟨?_, h.raised.trans k.raised, h.mirrors.trans k.mirrors⟩
  have hr := h.rest
  have kr := k.rest
  generalize t.points = a, t.reports = b, t.conds = c, t.lines = d at hr
  subst hr
  exact kr

/-- Replacing the point records touches the cache only. -/
theorem setPoints_cacheOnly (s : State) (ps : List Point) : CacheOnly s (s.setPoints ps) :=
  ⟨rfl, ⟨rfl, rfl, rfl, rfl, rfl⟩, fun _ _ => ⟨rfl, rfl⟩⟩

/-- R125: raising a report touches the report queue and REPORT_LOSS alone. -/
theorem raiseReport_cacheOnly (k : ReportKind) (body : List Byte) (s : State) : CacheOnly s (raiseReport k body s) := by
  obtain ⟨us, n, c, h⟩ := raiseReport_frame k body s
  rw [h]
  exact ⟨rfl, ⟨rfl, rfl, rfl, rfl, rfl⟩, fun _ _ => ⟨rfl, rfl⟩⟩

/-- R125: raising a report touches no point. -/
@[simp] theorem raiseReport_points (k : ReportKind) (body : List Byte) (s : State) :
    (raiseReport k body s).points = s.points := by
  obtain ⟨us, n, c, h⟩ := raiseReport_frame k body s
  rw [h]

/-- A mirrored line that is written anew as a mirrored line touches mirrored lines alone. -/
theorem putMirror_cacheOnly {i : Fin 8} {l m : MirrorLine} {s : State} (h : s.lines.records[i] = .outputMirror l) :
    CacheOnly s (putLine i (.outputMirror m) s) := by
  refine ⟨rfl, ⟨rfl, rfl, rfl, rfl, rfl⟩, fun j hj => ?_⟩
  have : j ≠ i := by
    rintro rfl
    simp only [h, LineRecord.mirror] at hj
    cases hj
  exact ⟨by rw [putLine_records, if_neg this], by rw [putLine_pins, if_neg fun e => this e.1]⟩

/-- R86, R153: telling mirrors touches mirrored lines alone, and no point. -/
theorem notifyMirrors_cacheOnly (k : Key) (q : Quality) (value : List Byte) (s : State) :
    CacheOnly s (notifyMirrors k q value s) ∧ (notifyMirrors k q value s).points = s.points := by
  refine overAll_keeps (P := fun t => CacheOnly s t ∧ t.points = s.points) ⟨.refl s, rfl⟩ fun i _ t ht => ?_
  split
  · rename_i l hl
    split
    · exact ⟨ht.1.trans (putMirror_cacheOnly hl), ht.2⟩
    · exact ht
  · exact ht

/-! ## One happening at a point, and at each of several -/

/-- R83-R86: a happening at a point replaces the record, raises reports and tells mirrors, and does nothing else. -/
theorem changePoint_cacheOnly (f : Point → Point) (p : Point) (s : State) :
    CacheOnly s (changePoint f p s) ∧ (changePoint f p s).points = replacePoint s.points (f p) := by
  have raised : CacheOnly s (if watched p (f p) then
        raiseReport .pointChanged (pointChangedBody (f p)) (s.setPoints (replacePoint s.points (f p)))
        else s.setPoints (replacePoint s.points (f p))) ∧
      (if watched p (f p) then
        raiseReport .pointChanged (pointChangedBody (f p)) (s.setPoints (replacePoint s.points (f p)))
        else s.setPoints (replacePoint s.points (f p))).points = replacePoint s.points (f p) := by
    split
    · exact ⟨(setPoints_cacheOnly s _).trans (raiseReport_cacheOnly _ _ _), by simp⟩
    · exact ⟨setPoints_cacheOnly s _, rfl⟩
  unfold changePoint
  dsimp only
  generalize (if watched p (f p) then
    raiseReport .pointChanged (pointChangedBody (f p)) (s.setPoints (replacePoint s.points (f p)))
    else s.setPoints (replacePoint s.points (f p))) = u at raised ⊢
  obtain ⟨h1, h2⟩ := raised
  split
  · exact ⟨h1, h2⟩
  · obtain ⟨k1, k2⟩ := notifyMirrors_cacheOnly (f p).key (f p).quality (f p).value u
    exact ⟨h1.trans k1, k2.trans h2⟩

/-- R83-R86: a happening at points that stand in the cache under distinct keys, and that keeps keys, applies to just those
records; beyond that it raises reports and tells mirrors. -/
theorem changePoints_cacheOnly (f : Point → Point) (ps : List Point) (s : State) (hf : ∀ p, (f p).key = p.key)
    (hd : (s.points.map (·.key)).Nodup) (hp : ∀ p ∈ ps, p ∈ s.points) (hn : (ps.map (·.key)).Nodup) :
    CacheOnly s (changePoints f ps s) ∧
      (changePoints f ps s).points = s.points.map fun q => if q ∈ ps then f q else q := by
  induction ps generalizing s with
  | nil => exact ⟨.refl s, by simp [changePoints]⟩
  | cons p ps ih =>
    obtain ⟨h1, h2⟩ := changePoint_cacheOnly f p s
    simp only [List.map_cons, List.nodup_cons] at hn
    have keys : ∀ q ∈ s.points, q.key = p.key → q = p := fun q hq hk =>
      List.inj_on_of_nodup_map hd hq (hp p List.mem_cons_self) hk
    have rest : ∀ q ∈ ps, q ∈ (changePoint f p s).points := by
      intro q hq
      rw [h2, replacePoint, List.mem_map]
      refine ⟨q, hp q (List.mem_cons_of_mem p hq), ?_⟩
      have : q.key ≠ p.key := fun h => hn.1 (h ▸ List.mem_map_of_mem hq)
      simp [hf, this]
    obtain ⟨k1, k2⟩ := ih (changePoint f p s) (by rw [h2, replacePoint_keys]; exact hd) rest hn.2
    refine ⟨h1.trans k1, k2.trans ?_⟩
    rw [h2, replacePoint, List.map_map]
    apply List.map_congr_left
    intro q hq
    by_cases hk : q.key = p.key
    · have hqp := keys q hq hk
      have hfp : f p ∉ ps := fun h => hn.1 (hf p ▸ List.mem_map_of_mem h)
      simp [hqp, hf, hfp]
    · have : q ≠ p := fun h => hk (h ▸ rfl)
      simp [hf, hk, this]

/-! ## The reports of a happening (R83-R85, R125, R126) -/

/-- R125: what raising a report makes of the queue and of REPORT_LOSS depends on these two alone. -/
theorem raiseReport_congr (k : ReportKind) (body : List Byte) {s t : State} (hr : s.reports = t.reports)
    (hl : s.conds.reportLoss = t.conds.reportLoss) :
    (raiseReport k body s).reports = (raiseReport k body t).reports ∧
      (raiseReport k body s).conds.reportLoss = (raiseReport k body t).conds.reportLoss := by
  have hc : s.canReserve = t.canReserve := by simp [State.canReserve, hr]
  have post : ∀ r, (postReport r s).reports = (postReport r t).reports ∧
      (postReport r s).conds.reportLoss = (postReport r t).conds.reportLoss := by
    intro r
    unfold postReport
    rw [hc, hr]
    split
    · exact ⟨rfl, hl⟩
    · split <;> simp [countLoss, activate_eq, ConditionSet.put, ConditionSet.get, hr, hl]
  unfold raiseReport
  rw [hr]
  split
  · exact ⟨hr, hl⟩
  · split
    · exact ⟨by simp [rewriteReport, hr], by simpa [rewriteReport] using hl⟩
    · exact post _

/-- The same for a list of reports. -/
theorem raising_congr (rs : List (ReportKind × List Byte)) {s t : State} (hr : s.reports = t.reports)
    (hl : s.conds.reportLoss = t.conds.reportLoss) :
    (s.raising rs).reports = (t.raising rs).reports ∧
      (s.raising rs).conds.reportLoss = (t.raising rs).conds.reportLoss := by
  induction rs generalizing s t with
  | nil => exact ⟨hr, hl⟩
  | cons r rs ih =>
    obtain ⟨h1, h2⟩ := raiseReport_congr r.1 r.2 hr hl
    exact ih h1 h2

/-- Reports raised in two runs. -/
theorem raising_append (xs ys : List (ReportKind × List Byte)) (s : State) :
    s.raising (xs ++ ys) = (s.raising xs).raising ys := List.foldl_append

/-- R125: a list of no reports. -/
theorem RaisedExactly.none {s t : State} (hr : t.reports = s.reports) (hc : t.conds = s.conds) :
    RaisedExactly [] s t := ⟨hr, hc⟩

/-- R125: a list of one report. -/
theorem RaisedExactly.one (k : ReportKind) (body : List Byte) (s : State) :
    RaisedExactly [(k, body)] s (raiseReport k body s) :=
  ⟨rfl, (raiseReport_cacheOnly k body s).raised.conds⟩

/-- R125: two lists of reports, raised one after the other. -/
theorem RaisedExactly.trans {xs ys : List (ReportKind × List Byte)} {s t u : State} (h : RaisedExactly xs s t)
    (k : RaisedExactly ys t u) : RaisedExactly (xs ++ ys) s u := by
  have hl : t.conds.reportLoss = (s.raising xs).conds.reportLoss := by rw [h.conds]
  obtain ⟨h1, h2⟩ := raising_congr ys h.reports hl
  refine ⟨?_, ?_⟩
  · rw [raising_append, k.reports, h1]
  · rw [raising_append, k.conds, h2, h.conds]

/-- R86: telling mirrors raises no report. -/
theorem notifyMirrors_reports (k : Key) (q : Quality) (value : List Byte) (s : State) :
    (notifyMirrors k q value s).reports = s.reports ∧ (notifyMirrors k q value s).conds = s.conds := by
  refine overAll_keeps (P := fun t => t.reports = s.reports ∧ t.conds = s.conds) ⟨rfl, rfl⟩ fun i _ t ht => ?_
  split
  · split <;> exact ht
  · exact ht

/-- R83: the watch mode asks for a report of the change. -/
theorem watched_iff {p q : Point} : watched p q = true ↔
    (q.watch = .change ∧ (q.value ≠ p.value ∨ q.status ≠ p.status ∨ q.quality ≠ p.quality)) ∨
      (q.watch = .quality ∧ q.quality ≠ p.quality) := by
  unfold watched
  cases h : q.watch <;> simp [ne_comm, or_assoc]

/-- R83-R85: a happening at a point raises the POINT_CHANGED its watch mode asks for, and nothing else. -/
theorem changePoint_raised (f : Point → Point) (p : Point) (s : State) :
    RaisedExactly (changeReports f [p]) s (changePoint f p s) := by
  have step : RaisedExactly (changeReports f [p]) s
      (if watched p (f p) then raiseReport .pointChanged (pointChangedBody (f p)) (s.setPoints (replacePoint s.points (f p)))
        else s.setPoints (replacePoint s.points (f p))) := by
    by_cases h : watched p (f p) = true
    · have h' := watched_iff.1 h
      have e : changeReports f [p] = [(.pointChanged, pointChangedBody (f p))] := by
        simp [changeReports, h', pointChangedBody]
      rw [e, if_pos h]
      exact RaisedExactly.trans (xs := []) (t := s.setPoints (replacePoint s.points (f p))) (.none rfl rfl) (.one _ _ _)
    · have h' := watched_iff.not.1 h
      have e : changeReports f [p] = [] := by simp [changeReports, h']
      rw [e, if_neg h]
      exact .none rfl rfl
  unfold changePoint
  dsimp only
  generalize (if watched p (f p) then
    raiseReport .pointChanged (pointChangedBody (f p)) (s.setPoints (replacePoint s.points (f p)))
    else s.setPoints (replacePoint s.points (f p))) = u at step ⊢
  split
  · exact step
  · obtain ⟨h1, h2⟩ := notifyMirrors_reports (f p).key (f p).quality (f p).value u
    have := step.trans (.none h1 h2)
    simpa using this

/-- R83: the reports of a first point, then those of the rest. -/
theorem changeReports_cons (f : Point → Point) (p : Point) (ps : List Point) :
    changeReports f (p :: ps) = changeReports f [p] ++ changeReports f ps := by
  unfold changeReports
  simp only [List.filterMap_cons, List.filterMap_nil]
  split <;> simp_all

/-- R83-R85: a happening at points raises what each one's watch mode asks for, in order, and nothing else. -/
theorem changePoints_raised (f : Point → Point) (ps : List Point) (s : State) :
    RaisedExactly (changeReports f ps) s (changePoints f ps s) := by
  induction ps generalizing s with
  | nil => exact .none rfl rfl
  | cons p ps ih =>
    rw [changeReports_cons]
    exact (changePoint_raised f p s).trans (ih _)

/-- R85, R125, R126: what raising one report can do, said once. -/
theorem raiseReport_raised (k : ReportKind) (body : List Byte) (s : State) :
    ReportRaised k body s (raiseReport k body s) := by
  unfold ReportRaised
  dsimp only
  have hs : ∀ e : Report, (samePoint body e = true ↔ e.kind = .pointChanged ∧ e.body.take 2 = body.take 2) := by
    intro e; simp [samePoint]
  refine ⟨fun h => ?_, fun h hsame => ?_, fun h hno hp => ?_, fun h hno hp => ?_⟩
  · simp [raiseReport, h]
  · obtain ⟨e, he, hk, hsm⟩ := hsame
    have : s.reports.unsent.any (samePoint body) = true := List.any_eq_true.2 ⟨e, he, (hs e).2 hsm⟩
    subst hk
    simp [raiseReport, h, this, rewriteReport, hs]
  · have : (k == .pointChanged && s.reports.unsent.any (samePoint body)) = false := by
      by_contra hc
      simp only [Bool.not_eq_false, Bool.and_eq_true, beq_iff_eq, List.any_eq_true] at hc
      obtain ⟨hk, e, he, h2⟩ := hc
      exact hno e he ⟨hk, (hs e).1 h2⟩
    simp [raiseReport, h, this, postReport_room hp]
  · have hf : (k == .pointChanged && s.reports.unsent.any (samePoint body)) = false := by
      by_contra hc
      simp only [Bool.not_eq_false, Bool.and_eq_true, beq_iff_eq, List.any_eq_true] at hc
      obtain ⟨hk, e, he, h2⟩ := hc
      exact hno e he ⟨hk, (hs e).1 h2⟩
    have hc : s.canReserve = false := decide_eq_false (Nat.not_lt.2 hp)
    have disp : ∀ l (e : Report), displaceable l e = true ↔ e.reserved = false ∧ e.level < l := by
      intro l e; simp [displaceable]
    simp only [raiseReport, h, if_false, hf, postReport, hc, Bool.false_eq_true]
    refine ⟨?_, fun hall => ?_, fun pre e post he hr hlt hmin hnew => ?_⟩
    · split <;> simp [countLoss, activate_eq, ConditionSet.put, ConditionSet.get]
    · have : lowestCandidate (s.reports.levelOf k) s.reports.unsent = none := by
        unfold lowestCandidate
        have : s.reports.unsent.filter (displaceable (s.reports.levelOf k)) = [] := by
          rw [List.filter_eq_nil_iff]
          intro e he hd
          obtain ⟨h1, h2⟩ := (disp _ _).1 hd
          rcases hall e he with h3 | h3
          · simp [h1] at h3
          · omega
        simp [this]
      simp [this, countLoss, activate_eq]
    · have hl : lowestCandidate (s.reports.levelOf k) s.reports.unsent = some e.level := by
        unfold lowestCandidate
        rw [List.min?_eq_some_iff]
        refine ⟨List.mem_map_of_mem (List.mem_filter.2 ⟨by simp [he], (disp _ _).2 ⟨hr, hlt⟩⟩), ?_⟩
        intro n hn
        obtain ⟨d, hd, rfl⟩ := List.mem_map.1 hn
        obtain ⟨hd1, hd2⟩ := List.mem_filter.1 hd
        exact hmin d hd1 ((disp _ _).1 hd2).1
      rw [hl]
      simp only [countLoss, activate_eq, State.setReports_reports, State.setConds_reports]
      have : eraseNewest (fun d => displaceable (s.reports.levelOf k) d && d.level == e.level) s.reports.unsent =
          pre ++ post := by
        unfold eraseNewest
        rw [he]
        simp only [List.reverse_append, List.reverse_cons, List.append_assoc]
        rw [List.eraseP_append_right]
        · simp [disp, hr, hlt]
        · intro d hd
          have := hnew d (List.mem_reverse.1 hd)
          simp only [Bool.and_eq_true, disp, beq_iff_eq, not_and]
          intro h1
          exact this h1.1
      rw [this]

/-! ## The mirrored lines after a happening (R86, R153) -/

/-- R86, R153: the lines after a notification: those bound to the point are shown anew, every other is as it was. -/
theorem notifyMirrors_lines (k : Key) (q : Quality) (value : List Byte) (s : State) (i : Fin 8) :
    (∀ l, s.lines.records[i] = .outputMirror l → l.binding = k →
      (notifyMirrors k q value s).lines.records[i] = .outputMirror (l.shown q value) ∧
        (notifyMirrors k q value s).lines.pins[i] =
          if (l.shown q value).current = l.current then s.lines.pins[i] else (l.shown q value).current) ∧
    ((∀ l, s.lines.records[i] = .outputMirror l → l.binding ≠ k) →
      (notifyMirrors k q value s).lines.records[i] = s.lines.records[i] ∧
        (notifyMirrors k q value s).lines.pins[i] = s.lines.pins[i]) := by
  have each := overAll_lines (s := s) (f := fun i t =>
    match t.lines.records[i] with
    | .outputMirror l => if l.binding = k then putLine i (.outputMirror (l.shown q value)) t else t
    | _ => t)
    (by
      intro i j t hj
      split
      · split
        · exact ⟨by rw [putLine_records, if_neg hj], by rw [putLine_pins, if_neg fun e => hj e.1]⟩
        · exact ⟨rfl, rfl⟩
      · exact ⟨rfl, rfl⟩)
    (by
      intro i t hr hp
      cases hl : s.lines.records[i] with
      | outputMirror l =>
        simp only [hr, hl]
        by_cases hb : l.binding = k
        · simp only [hb, if_true]
          exact ⟨by rw [putLine_records, putLine_records, if_pos rfl, if_pos rfl], by
            rw [putLine_pins, putLine_pins, hr, hp]⟩
        · simp only [hb, if_false]
          exact ⟨hr, hp⟩
      | _ =>
        simp only [hr, hl]
        exact ⟨trivial, hp⟩) i
  have e : notifyMirrors k q value s = overAll allLines (fun i t =>
    match t.lines.records[i] with
    | .outputMirror l => if l.binding = k then putLine i (.outputMirror (l.shown q value)) t else t
    | _ => t) s := rfl
  rw [e, each.1, each.2]
  refine ⟨fun l hl hb => ?_, fun hno => ?_⟩
  · simp only [hl, hb, if_true]
    rw [putLine_records, putLine_pins]
    simp only [if_true, true_and, hl, LineRecord.drive]
    by_cases hc : (l.shown q value).current = l.current <;> simp [hc]
  · cases hr : s.lines.records[i] with
    | outputMirror l => simp [hno l hr, hr]
    | _ => simp [hr]

/-- R86, R153: the lines after a happening at a point. -/
theorem changePoint_lines (f : Point → Point) (p : Point) (s : State) (hf : (f p).key = p.key) (i : Fin 8) :
    (∀ l, s.lines.records[i] = .outputMirror l → l.binding = p.key → (p.quality ≠ (f p).quality ∨ p.value ≠ (f p).value) →
      (changePoint f p s).lines.records[i] = .outputMirror (l.shown (f p).quality (f p).value) ∧
        (changePoint f p s).lines.pins[i] =
          if (l.shown (f p).quality (f p).value).current = l.current then s.lines.pins[i]
          else (l.shown (f p).quality (f p).value).current) ∧
    ((∀ l, s.lines.records[i] = .outputMirror l → l.binding = p.key → p.quality = (f p).quality ∧ p.value = (f p).value) →
      (changePoint f p s).lines.records[i] = s.lines.records[i] ∧
        (changePoint f p s).lines.pins[i] = s.lines.pins[i]) := by
  have hu : ∀ b : Bool, (if b then raiseReport .pointChanged (pointChangedBody (f p)) (s.setPoints (replacePoint s.points (f p)))
      else s.setPoints (replacePoint s.points (f p))).lines = s.lines := by
    intro b
    cases b
    · rfl
    · obtain ⟨us, n, c, h⟩ := raiseReport_frame .pointChanged (pointChangedBody (f p)) (s.setPoints (replacePoint s.points (f p)))
      simp [h]
  unfold changePoint
  dsimp only
  have hl := hu (watched p (f p))
  generalize (if watched p (f p) = true then
    raiseReport .pointChanged (pointChangedBody (f p)) (s.setPoints (replacePoint s.points (f p)))
    else s.setPoints (replacePoint s.points (f p))) = u at hl ⊢
  obtain ⟨n1, n2⟩ := notifyMirrors_lines (f p).key (f p).quality (f p).value u i
  rw [hl] at n1 n2
  by_cases hc : p.quality = (f p).quality ∧ p.value = (f p).value
  · rw [if_pos hc, hl]
    refine ⟨fun l _ _ h => ?_, fun _ => ⟨rfl, rfl⟩⟩
    rcases h with h | h
    · exact absurd hc.1 h
    · exact absurd hc.2 h
  · rw [if_neg hc]
    exact ⟨fun l h1 h2 _ => n1 l h1 (h2.trans hf.symm), fun h => n2 fun l h1 h2 => hc (h l h1 (h2.trans hf))⟩

/-- R86, R153: the lines after a happening at points under distinct keys. -/
theorem changePoints_lines (f : Point → Point) (ps : List Point) (s : State) (hf : ∀ p, (f p).key = p.key)
    (hn : (ps.map (·.key)).Nodup) (i : Fin 8) :
    (∀ l, s.lines.records[i] = .outputMirror l → ∀ p ∈ ps, p.key = l.binding →
      (p.quality ≠ (f p).quality ∨ p.value ≠ (f p).value) →
      (changePoints f ps s).lines.records[i] = .outputMirror (l.shown (f p).quality (f p).value) ∧
        (changePoints f ps s).lines.pins[i] =
          if (l.shown (f p).quality (f p).value).current = l.current then s.lines.pins[i]
          else (l.shown (f p).quality (f p).value).current) ∧
    ((∀ l, s.lines.records[i] = .outputMirror l → ∀ p ∈ ps, p.key = l.binding →
      p.quality = (f p).quality ∧ p.value = (f p).value) →
      (changePoints f ps s).lines.records[i] = s.lines.records[i] ∧
        (changePoints f ps s).lines.pins[i] = s.lines.pins[i]) := by
  induction ps generalizing s with
  | nil => exact ⟨by simp, fun _ => ⟨rfl, rfl⟩⟩
  | cons p ps ih =>
    simp only [List.map_cons, List.nodup_cons, List.mem_map, not_exists, not_and] at hn
    obtain ⟨c1, c2⟩ := changePoint_lines f p s (hf p) i
    obtain ⟨r1, r2⟩ := ih (changePoint f p s) hn.2
    have e : changePoints f (p :: ps) s = changePoints f ps (changePoint f p s) := rfl
    rw [e]
    constructor
    · intro l hl q hq hk hd
      rcases List.mem_cons.1 hq with rfl | hq
      · obtain ⟨a1, a2⟩ := c1 l hl hk.symm hd
        obtain ⟨b1, b2⟩ := r2 (by
          intro m hm x hx hxk
          rw [a1] at hm
          cases hm
          have : (l.shown (f q).quality (f q).value).binding = l.binding := by
            unfold MirrorLine.shown; split <;> rfl
          rw [this, ← hk] at hxk
          exact absurd hxk (hn.1 x hx))
        exact ⟨b1.trans a1, b2.trans a2⟩
      · have hne : ∀ m, s.lines.records[i] = .outputMirror m → m.binding = p.key → False := by
          intro m hm hb
          rw [hl] at hm
          cases hm
          exact hn.1 q hq (hk.trans hb)
        obtain ⟨a1, a2⟩ := c2 fun m hm hb => (hne m hm hb).elim
        have := r1 l (a1.trans hl) q hq hk hd
        rw [a2] at this
        exact this
    · intro h
      obtain ⟨a1, a2⟩ := c2 fun l hl hb => h l hl p List.mem_cons_self hb.symm
      obtain ⟨b1, b2⟩ := r2 fun l hl q hq hk => h l (a1 ▸ hl) q (List.mem_cons_of_mem p hq) hk
      exact ⟨b1.trans a1, b2.trans a2⟩

/-- R86, R153: after a happening at points that stand in the cache under distinct keys, the mirrored lines follow. -/
theorem changePoints_follow (f : Point → Point) (ps : List Point) (s : State) (hf : ∀ p, (f p).key = p.key)
    (hd : (s.points.map (·.key)).Nodup) (hp : ∀ p ∈ ps, p ∈ s.points) (hn : (ps.map (·.key)).Nodup) :
    MirrorsFollow s (changePoints f ps s) := by
  intro i l hl
  obtain ⟨c1, c2⟩ := changePoints_lines f ps s hf hn i
  have pts := (changePoints_cacheOnly f ps s hf hd hp hn).2
  have after : ∀ p, s.point l.binding = some p →
      (changePoints f ps s).point l.binding = some (if p ∈ ps then f p else p) := by
    intro p h
    obtain ⟨hk, hm⟩ := point_some h
    have hkeys : (changePoints f ps s).points.map (·.key) = s.points.map (·.key) := by
      rw [pts, List.map_map]
      apply List.map_congr_left
      intro q _
      by_cases hq : q ∈ ps <;> simp [hq, hf]
    have := point_of_mem (s := changePoints f ps s) (p := if p ∈ ps then f p else p) (by rw [hkeys]; exact hd)
      (by rw [pts]; exact List.mem_map_of_mem (f := fun q => if q ∈ ps then f q else q) hm)
    have hkey : (if p ∈ ps then f p else p).key = l.binding := by split <;> simp [hf, hk]
    rw [hkey] at this
    exact this
  refine ⟨fun p q h1 h2 hc => ?_, fun h => ?_⟩
  · have h3 := after p h1
    rw [h2] at h3
    cases h3
    by_cases hin : p ∈ ps
    · simp only [hin, if_true] at hc ⊢
      have := c1 l hl p hin (point_some h1).1 (by
        rcases hc with h | h
        · exact .inl (Ne.symm h)
        · exact .inr (Ne.symm h))
      cases hs : l.safe <;> by_cases hg : (f p).quality = .good <;>
        simpa [MirrorLine.shown, MirrorLine.bitLevel, safeShown, hs, hg] using this
    · simp [hin] at hc
  · refine c2 fun m hm p hpm hk => ?_
    rw [hl] at hm
    cases hm
    have h1 : s.point l.binding = some p := hk ▸ point_of_mem hd (hp p hpm)
    have := h p _ h1 (after p h1)
    simp only [hpm, if_true] at this
    exact ⟨this.1.symm, this.2.symm⟩

end Sys2Proof.Machine
end

