-- ==== Sys2Proof/Laws/Receiver.lean ====
section
/-! SUPPORT. Reading symbols in runs (R161-R164), and what closing a frame and ending a record touch. -/

namespace Sys2Proof.Machine

/-- No symbol, no change. -/
@[simp] theorem readSymbols_nil (bit : Nat) (r : Receiver) : readSymbols bit r [] = .reading r := rfl

/-- One symbol, then the rest. -/
theorem readSymbols_cons (bit : Nat) (r : Receiver) (x : Symbol) (xs : List Symbol) :
    readSymbols bit r (x :: xs) =
      match readSymbol bit r x with
      | .reading r' => readSymbols bit r' xs
      | .verdict f v => .verdict f v xs.isEmpty := rfl

/-- A run read in two parts: a verdict of the first part stands, and the second part goes on from where the first left
off. -/
theorem readSymbols_append (bit : Nat) (r : Receiver) (xs ys : List Symbol) :
    readSymbols bit r (xs ++ ys) =
      match readSymbols bit r xs with
      | .reading r' => readSymbols bit r' ys
      | .verdict f v atEnd => .verdict f v (atEnd && ys.isEmpty) := by
  induction xs generalizing r with
  | nil => rfl
  | cons x xs ih =>
    rw [List.cons_append, readSymbols_cons, readSymbols_cons]
    cases h : readSymbol bit r x with
    | reading r' => exact ih r'
    | verdict f v => cases xs <;> simp

/-- Reading a symbol counts it, and neither the frame's first transition nor its echo mark changes. -/
@[simp] theorem afterSymbol_count (f : FrameInProgress) (bit : Nat) (x : Symbol) :
    (f.afterSymbol bit x).count = f.count + 1 ∧ (f.afterSymbol bit x).start = f.start ∧
      (f.afterSymbol bit x).echo = f.echo := ⟨rfl, rfl, rfl⟩

/-- R35: with no record in flight, no outcome has any effect. -/
theorem endRecord_none {o : TxnOutcome} {s : State} (h : s.txn.record = none) : endRecord o s = s := by
  simp [endRecord, h]

/-- R35: the record is discarded when it has ended. -/
theorem endRecord_record (o : TxnOutcome) (s : State) : (endRecord o s).txn.record = none := by
  unfold endRecord
  cases h : s.txn.record with
  | none => exact h
  | some r => rfl

/-- R166: the verdict on an echo touches the segment line alone. -/
theorem noteEcho_frame (v : Verdict) (s : State) : noteEcho v s = { s with seg := (noteEcho v s).seg } := by
  unfold noteEcho
  split <;> rfl

end Sys2Proof.Machine
end

