-- ==== Sys2Proof/Laws/Tables.lean ====
section
/-! SUPPORT. The tables of the operations are those of the statements: ranges (R2), lengths (R193), HOLD (R177), the
symbols of a frame and what the segment pins show (R157-R159, R165). -/

namespace Sys2Proof.Machine

/-! ## Ranges and lengths (R2, R193) -/

/-- R2: the range check of the operations is that of the statements. -/
theorem paramInRange_iff (n v : Nat) : paramInRange n v = true ↔ ParamAllowed n v := by
  unfold paramInRange ParamAllowed
  split
  case h_9 h1 h2 h3 h4 h5 h6 h7 h8 =>
    exact ⟨nofun, fun h => by rcases h with h | h | h | h | h | h | h | h <;> simp_all⟩
  all_goals
    simp
    try omega

/-- R193: the length check of the operations is that of the statements. -/
theorem lengthAllowed_iff (r : RequestName) (n : Nat) : lengthAllowed r n = true ↔ LengthOf r n := by
  cases r <;> simp [lengthAllowed, LengthOf]

/-! ## HOLD (R177) -/

/-- R177, R188: HOLD is asserted exactly while both places are occupied, out of reset. -/
theorem State.hold_iff (s : State) : s.hold = true ↔ s.inReset = false ∧ s.link.buffer.length = 2 := by
  simp [State.hold, Config.bufferPlaces]

/-! ## The part's own frame (R157-R159, R165) -/

/-- R159: one byte goes through the register. -/
theorem crcByte_eq (reg : Word16) (b : Byte) :
    crcByte reg b = (List.range 8).foldl (init := reg) fun (g : Word16) k =>
      if g.getMsbD 0 = b.getMsbD k then g <<< 1 else (g <<< 1) ^^^ 0x1021 := by
  have h : List.range 8 = [0, 1, 2, 3, 4, 5, 6, 7] := rfl
  have bit (g : Word16) (x : Bool) :
      crcBit g x = if g.getMsbD 0 = x then g <<< 1 else (g <<< 1) ^^^ 0x1021 := by
    simp [crcBit, BitVec.msb]
  simp only [crcByte, List.foldl_cons, List.foldl_nil, bit, h, BitVec.getMsbD]
  rfl

/-- R159: the check of the operations is that of the statements. -/
theorem crcBytes_eq (body : List Byte) :
    crcBytes body = [(checkOf body).extractLsb' 8 8, (checkOf body).extractLsb' 0 8] := by
  have h : crcRegister body = ~~~ checkOf body := by
    simp only [checkOf, crcRegister, BitVec.not_not]
    congr 1
    funext reg b
    rw [crcByte_eq]
  rw [crcBytes, h, BitVec.not_not]
  simp only [be16, byteOf, List.cons.injEq, and_true]
  constructor <;> apply BitVec.eq_of_toNat_eq <;>
    simp [BitVec.extractLsb'_toNat, Nat.shiftRight_eq_div_pow]

/-- R158: the symbols of a frame are those of the statements. -/
theorem frameSymbols_eq (body : List Byte) : frameSymbols body = symbolsOf body := by
  have h : byteSymbols = fun b : Byte => (List.range 8).map fun k => if b.getLsbD k then Symbol.one else .zero := by
    funext b
    simp only [byteSymbols, symbolOfBit]
    rfl
  simp only [frameSymbols, bodySymbols, symbolsOf, crcBytes_eq, h, preambleSymbols, startDelimiter, endDelimiter,
    List.append_assoc]

/-- R157: the half-bits of a symbol. -/
theorem symbolHalves_eq (x : Symbol) : symbolHalves x = (levelOfHalf x false, levelOfHalf x true) := by
  cases x <;> rfl

/-- R165: in IDLE the pins are withdrawn and low. -/
theorem idle_pins {s : State} (h : s.seg.transmitter = .idle) :
    s.transmitterState = .idle ∧ s.segTxen = false ∧ s.segTx = false := by
  simp [State.transmitterState, State.segTxen, State.segTx, h, Transmitter.busy]

/-- R157, R165: SEG_TX in the bit time of a symbol. -/
theorem segTx_symbol {s : State} {body : List Byte} {since n : Nat} {x : Symbol}
    (h : s.seg.transmitter = .sending body since) (hx : (symbolsOf body)[n]? = some x)
    (hs : since + n * s.bits 1 ≤ s.now) (he : s.now < since + (n + 1) * s.bits 1) :
    (s.now - since) / s.bits 1 = n ∧ s.segTx = levelOfHalf x (decide (since + n * s.bits 1 + s.bits 1 / 2 ≤ s.now)) := by
  have hb : s.bits 1 = 256 ∨ s.bits 1 = 64 := by
    unfold State.bits bitClocks
    cases s.sched.params.rate <;> simp
  have hn : (s.now - since) / s.bits 1 = n := by rcases hb with e | e <;> rw [e] at hs he ⊢ <;> omega
  have hh : (s.now - since) / (s.bits 1 / 2) / 2 = n := by rcases hb with e | e <;> rw [e] at hs he ⊢ <;> omega
  refine ⟨hn, ?_⟩
  simp only [State.segTx, h, hh, frameSymbols_eq, hx, symbolHalves_eq]
  by_cases hp : since + n * s.bits 1 + s.bits 1 / 2 ≤ s.now
  · have : (s.now - since) / (s.bits 1 / 2) % 2 ≠ 0 := by
      rcases hb with e | e <;> rw [e] at hs he hp ⊢ <;> omega
    simp [hp, this]
  · have : (s.now - since) / (s.bits 1 / 2) % 2 = 0 := by
      rcases hb with e | e <;> rw [e] at hs he hp ⊢ <;> omega
    simp [hp, this]

end Sys2Proof.Machine
end

