-- ==== Sys2Proof/Tests/Slice0.lean ====
section
/-! SUPPORT. Our own checks: ill-formed operands are refused; the spec's worked examples come out as its tables say; and
for each statement with hypotheses, a state and operands that meet them all together. -/

-- One test after another: tests checked side by side would each hold a thread while an earlier one is being checked.
set_option Elab.async false

namespace Sys2Proof.Tests

open Sys2Proof Sys2Proof.Machine

/-! ## Ill-formed operands (each check of WellFormed.lean refuses one) -/

theorem test_wf_refuses_payload_193 : Instr.wf (.configure 1 (List.replicate 193 0)) = false := by decide +kernel
theorem test_wf_takes_payload_192 : Instr.wf (.configure 1 (List.replicate 192 0)) = true := by decide +kernel
theorem test_wf_refuses_known_code_as_unknown : Instr.wf (.unknownRequest 0x71 1 []) = false := by decide +kernel
theorem test_wf_refuses_offset_0 : Instr.wf (.slotDue 0) = false := by decide +kernel
theorem test_wf_refuses_offset_65536 : Instr.wf (.slotLate 65536) = false := by decide +kernel
theorem test_wf_refuses_no_symbols : Instr.wf (.segmentFrameReceived []) = false := by decide +kernel
theorem test_wf_refuses_33_delimiter_symbols :
    Instr.wf (.startDelimiterCompleted (List.replicate 33 .one)) = false := by decide +kernel
theorem test_wf_refuses_len_in_range : Instr.wf (.linkFormatError (.length 196)) = false := by decide +kernel

/-! ## The example of a ROLL on the wire (chapter 9), R159, R196 -/

theorem test_register_after_40h : crcRegister [0x40] = 0xA934 := by decide +kernel
theorem test_register_after_40h_14h : crcRegister [0x40, 0x14] = 0x4276 := by decide +kernel
theorem test_check_of_roll_20 : crcBytes (rollBody 20) = [0xBD, 0x89] := by decide +kernel
theorem test_register_after_BDh : crcRegister [0x40, 0x14, 0xBD] = 0x68F0 := by decide +kernel
theorem test_register_of_sound_frame : crcRegister [0x40, 0x14, 0xBD, 0x89] = 0x1D0F := by decide +kernel
theorem test_roll_symbols_of_40h : byteSymbols 0x40 = [.zero, .zero, .zero, .zero, .zero, .zero, .one, .zero] := by
  decide +kernel
theorem test_roll_lasts_56_bits : (frameSymbols (rollBody 20)).length = 56 := by decide +kernel

/-- A receiver that has seen a frame's first transition and nothing else. -/
def opening : Receiver := .locking { start := 0, echo := false, count := 0, lastHalf := false, lastTransition := 0 } 0 none

theorem test_roll_delimiter_ends_bit_17 :
    ∃ f, readSymbols 256 opening ((frameSymbols (rollBody 20)).take 18) = .reading (.body f false [] [] []) ∧
      f.count = 18 := ⟨_, rfl, rfl⟩
theorem test_roll_last_transition_at_bit_55 :
    (match readSymbols 256 opening (frameSymbols (rollBody 20)) with
      | .verdict f v true => decide (f.lastTransition = 55 * 256) && v == .good [0x40, 0x14] false
      | _ => false) = true := by decide +kernel
theorem test_crossed_roll_is_good_and_inverted :
    (match readSymbols 256 opening ((frameSymbols (rollBody 20)).map symbolInverse) with
      | .verdict _ v true => v == .good [0x40, 0x14] true
      | _ => false) = true := by decide +kernel

/-- R196: the body of the MARK that opens cycle 81 with period 1000. -/
theorem test_mark_body_of_cycle_81 : markBody 81 1000 = [0x10, 0x3F, 0x00, 0x00, 0x00, 0x51, 0x03, 0xE8] := by
  decide +kernel

/-! ## The example of one cycle of gap work (chapter 5): worst cases at the default window, 40 kbit/s -/

theorem test_trigger_of_4_bytes_takes_68_ticks : bitsToTicks .k40 (worstBits 64 3 8) = 68 := by decide +kernel
theorem test_fetch_takes_150_ticks : bitsToTicks .k40 (worstBits 64 2 50) = 150 := by decide +kernel
theorem test_send_of_6_bytes_takes_166_ticks : bitsToTicks .k40 (worstBits 64 9 51) = 166 := by decide +kernel
theorem test_roll_takes_70_ticks : bitsToTicks .k40 (worstBits 64 2 10) = 70 := by decide +kernel

/-! ## States of the tests -/

/-- The part in RUN, 10 ticks into cycle 0, on a line long quiet. -/
def running : State :=
  { State.reset with
    now := 10240
    sched := { State.reset.sched with mode := .run }
    seg := { State.reset.seg with activity := .quiet } }

/-- A station's identity, told apart by its address. -/
def identity (a : Nat) : Identity := { maker := 7, model := 2, serial := BitVec.ofNat 32 a }

/-- A roster entry is put into a state. -/
def withStation (a : Nat) (x : RosterState) (s : State) : State :=
  s.setEntry a { RosterEntry.vacant with state := x, seen := some (identity a) }

/-- A point joins the cache. -/
def withPoint (a n len : Nat) (q : Quality) (s : State) : State :=
  { s with points := insertPoint { newPoint { address := a, number := n } len 2 q with watch := .change } s.points }

/-- A slot joins the active bank. -/
def withSlot (x : Slot) (s : State) : State :=
  { s with sched := { s.sched with active := insertSlot x s.sched.active } }

/-- The slot that cues point (4,1) every cycle at an offset. -/
def slot41 (offset : Nat) : Slot := { offset := offset, address := 4, number := 1, divisor := 1, phase := 0 }

/-- A message joins the outbound queue with its reservation. -/
def withMessage (m : Message) (s : State) : State := acceptMessage m s

/-- A message of three bytes to station 4. -/
def message4 (tag : Byte) (c : MessageClass) : Message :=
  { tag := tag, destination := 4, cls := c, payload := [1, 2, 3], limit := 2, made := 0, state := .queued
    onLine := false, gone := false }

/-- A line has a record. -/
def withLine (i : Fin 8) (r : LineRecord) (s : State) : State := putLine i r s

/-- An INPUT line bound to point (4,1), both edges, with its edges reported. -/
def input41 (filter : Nat) : InputLine :=
  { edge := .both, filter := filter, filtered := .low, edgeCount := 0, reportEdge := true
    binding := some { address := 4, number := 1 }, pending := false, cueOnLine := false, differsSince := none }

/-- The transaction unit holds a record. -/
def withRecord (o : Origin) (k : FrameKind) (p : Phase) (e : Option Expected) (s : State) : State :=
  s.setTxn { s.txn with
    record := some
      { origin := o, kind := k, target := 4, body := [0x20, 4, 1], expected := e, phase := p, abandonAtEnd := false } }

/-- Station 4 ACTIVE with point (4,1) of two bytes, in RUN. -/
def plant : State := withPoint 4 1 2 .never (withStation 4 .active running)

/-- The payload of the frame being sent. -/
def answerOf : Host.Outcome State Fault Refusal → Option (List Byte)
  | .next t => t.link.sending.map (·.payload)
  | _ => none

/-- What a next state shows. -/
def shown {α : Type} (f : State → α) : Host.Outcome State Fault Refusal → Option α
  | .next t => some (f t)
  | _ => none

/-- The state with a request's frame alone in the receive buffer; nothing else differs. -/
def State.got (s : State) (r : RequestName) (num : Word16) (p : List Byte) : State :=
  s.setLink { s.link with buffer := [requestFrame r num p] }

/-- The request is taken from a state with its frame in the buffer, and is no repeat. -/
abbrev FreshAt (s : State) (r : RequestName) (num : Word16) (p : List Byte) : Prop :=
  TakenFresh (requestFrame r num p) (State.got s r num p)

/-- A request that heads the buffer of a part which has taken nothing since reset is taken, and is no repeat. -/
theorem got_fresh {s : State} {r : RequestName} {num : Word16} {p : List Byte} (hr : s.inReset = false)
    (hl : s.link.lastRequest = none) (hw : s.link.responseInHand = false) :
    FreshAt s r num p :=
  ⟨⟨hr, hw, rfl⟩, by intro l h; exact absurd (hl.symm.trans h) (by simp)⟩

/-! ## Requests, on the spec's own figures (expected answers from R9, R72, R105, R141, R144, R185, R192 to R194) -/

theorem test_configure_example_refused_at_position_2 :
    answerOf (exec (.configure 1 (Wire.configure [(3, 80), (8, 5)])) State.reset) = some [0x03, 2] := by decide +kernel
theorem test_configure_empty_list_is_ok : answerOf (exec (.configure 1 []) State.reset) = some [0x00] := by
  decide +kernel
theorem test_readConfig_defaults :
    answerOf (exec (.readConfig 1 []) State.reset) =
      some [0, 0x03, 0xE8, 0, 10, 0, 64, 0, 40, 0, 3, 0, 1, 0, 0, 0, 0] := by decide +kernel
theorem test_identify :
    answerOf (exec (.identify 1 []) State.reset) =
      some [0, 0x0E, 0x21, 0x0A, 0x32, 1, 62, 64, 96, 16, 32, 8, 8, 192] := by decide +kernel
theorem test_start_enters_run :
    shown (·.sched.mode) (exec (.start 1 []) State.reset) = some .run := by decide +kernel
theorem test_addSlot_below_the_period :
    shown (·.sched.shadow.map (·.offset)) (exec (.addSlot 1 (Wire.addSlot 999 4 1 1 0)) plant) = some [999] := by
  decide +kernel
theorem test_addSlot_at_the_period_refused :
    answerOf (exec (.addSlot 1 (Wire.addSlot 1000 4 1 1 0)) plant) = some [0x03] := by decide +kernel
theorem test_declare_twice_refused : answerOf (exec (.declare 1 [4, 1, 2, 2]) plant) = some [0x08] := by decide +kernel
theorem test_readPoint_of_plant :
    answerOf (exec (.readPoint 1 [4, 1]) plant) =
      some ([0, 4, 1, 2, 0, 2, 0, 0, 2, 0, 0, 0, 0, 0, 0, 0, 0, 0]) := by decide +kernel
theorem test_send_to_no_station_refused :
    answerOf (exec (.send 1 [5, 9, 0, 1, 0xAA]) plant) = some [0x0B] := by decide +kernel
theorem test_send_takes_a_reservation :
    shown (·.reports.reservations) (exec (.send 1 [4, 9, 0, 1, 0xAA]) plant) = some 1 := by decide +kernel
theorem test_bar_raises_lost_then_point_changed :
    shown (fun t => t.reports.unsent.map (·.kind)) (exec (.bar 1 [4]) plant) =
      some [.start, .deviceLost, .pointChanged] := by decide +kernel
theorem test_unknown_request : answerOf (exec (.unknownRequest 0x0C 1 []) State.reset) = some [0x01] := by decide +kernel
theorem test_setLine_binding_not_declared :
    answerOf (exec (.setLine 1 (Wire.setLineInput 2 .rise 2 true (some { address := 9, number := 0 }))) plant) =
      some [0x09] := by decide +kernel
theorem test_readConditions_ends_hostSilent :
    shown (·.conds.hostSilent) (exec (.readConditions 1 [])
      { plant with conds := { plant.conds with hostSilent := { active := true, latched := true } } }) =
      some { active := false, latched := true } := by decide +kernel

/-! ## The example of levels, the window and a resend (chapter 7) -/

/-- A report of a kind, at its level. -/
def reportOf (k : ReportKind) (l : Nat) (body : List Byte) : Report := { kind := k, level := l, body := body, reserved := false }

/-- SENT entries numbered from n on. -/
def sentFrom (n count : Nat) : List SentReport :=
  (List.range count).map fun i =>
    { report := reportOf .deviceLost 3 [], seq := BitVec.ofNat 16 (n + i), resendDue := false }

/-- 38, 39, 40 SENT, the counter at 41, POINT_CHANGED and DEVICE_JOINED UNSENT. -/
def levelsExample : State :=
  { plant with reports := { plant.reports with
      unsent := [reportOf .pointChanged 1 [17, 0], reportOf .deviceJoined 2 [40]]
      sent := sentFrom 38 3, counter := 41 } }

theorem test_level_2_is_taken_before_level_1 :
    shown (fun t => (t.reports.unsent.map (·.kind), t.reports.sent.map (·.seq), t.reports.counter))
      (exec .reportTaken levelsExample) = some ([.pointChanged], [38, 39, 40, 41], 42) := by decide +kernel
theorem test_ack_40_of_five :
    shown (fun t => (t.reports.sent.map (·.seq), t.link.sending.map (·.payload)))
      (exec (.ackReports 1 [0, 40]) { levelsExample with reports := { levelsExample.reports with
        sent := sentFrom 38 5 } }) = some ([41, 42], some [0, 3]) := by decide +kernel

/-! ## The example of a full queue (chapter 7) -/

/-- 5 reservations, 8 SENT entries 100 to 107, 12 POINT_CHANGED at level 1 and 7 entries at level 2. -/
def fullExample : State :=
  { plant with reports := { plant.reports with
      unsent := (List.range 12).map (fun i => reportOf .pointChanged 1 [byteOf (i + 10), 0]) ++
        List.replicate 7 (reportOf .deviceJoined 2 [])
      sent := sentFrom 100 8, reservations := 5 } }

theorem test_full_queue_displaces_the_newest_of_level_1 :
    shown (fun t => (t.reports.places, t.reports.lossTally, t.conds.reportLoss))
        (.next (raiseReport .deviceHeld [9] fullExample)) = some (32, 1, { active := true, latched := true }) ∧
      shown (fun t => t.reports.unsent.map (fun r => (r.kind, r.body.head?)))
        (.next (raiseReport .deviceHeld [9] fullExample)) =
        some ((List.range 11).map (fun i => (ReportKind.pointChanged, some (byteOf (i + 10)))) ++
          List.replicate 7 (.deviceJoined, none) ++ [(.deviceHeld, some 9)]) := by decide +kernel
theorem test_full_queue_discards_level_1 :
    shown (fun t => (t.reports.unsent, t.reports.lossTally)) (.next (raiseReport .pointChanged [40, 0] fullExample)) =
      some (fullExample.reports.unsent, 1) := by decide +kernel
theorem test_full_queue_rewrites_an_entry :
    shown (fun t => (t.reports.lossTally, t.reports.unsent.head?.map (·.body)))
      (.next (raiseReport .pointChanged [10, 0, 3] fullExample)) = some (0, some [10, 0, 3]) := by decide +kernel
theorem test_ack_102_queues_overflow :
    shown (fun t => (t.reports.places, t.reports.lossTally, t.conds.reportLoss.active,
        t.reports.unsent.getLast?.map (·.body)))
      (exec (.ackReports 1 [0, 102]) { fullExample with
        reports := { fullExample.reports with lossTally := 2 }
        conds := { fullExample.conds with reportLoss := { active := true, latched := true } } }) =
      some (30, 0, false, some [0, 2]) := by decide +kernel

/-! ## The examples of the lines (chapter 8) -/

/-- L2 as the example has it: RISE, filter 2, its pin HIGH since tick 400 of cycle 50. -/
def lineExample : State :=
  withLine 2
    (.input { input41 2 with edge := .rise, differsSince := some 409600 })
    { plant with now := 411648, sched := { plant.sched with cycle := 50 }
                 lines := { plant.lines with pins := plant.lines.pins.set 2 .high } }

theorem test_filtered_edge_of_cycle_50_tick_402 :
    shown (fun t => (t.reports.unsent.getLast?.map (·.body), t.lines.records[2]))
      (exec (.inputFilterExpired 2) lineExample) =
      some (some [2, 0, 0, 0, 0, 0, 50, 0x01, 0x92],
        .input { input41 2 with edge := .rise, filtered := .high, edgeCount := 1, pending := true }) := by decide +kernel

/-- A return at the very instant the filter time ends comes too late, and one clock period before it leaves no trace. -/
theorem test_return_at_the_filter_time :
    (shown (·.lines.records[2]) (exec (.localLinePinChange 2 .low) lineExample),
      shown (·.lines.records[2]) (exec (.localLinePinChange 2 .low) { lineExample with now := 411647 })) =
      (some (.input { input41 2 with edge := .rise, filtered := .high, edgeCount := 1, pending := true
                                     differsSince := some 411648 }),
        some (.input { input41 2 with edge := .rise })) := by decide +kernel

/-- L5 with safe level LOW and L6 with HOLD, both written HIGH; the hold time is 500 ms. -/
def outputsExample : State :=
  withLine 6 (.outputHost { safe := .hold, current := .high, held := .high, forcedSafe := false })
    (withLine 5 (.outputHost { safe := .low, current := .high, held := .high, forcedSafe := false })
      { plant with sched := { plant.sched with params := { plant.sched.params with holdTime := 500 } } })

theorem test_silence_forces_L5_low_and_keeps_L6_high :
    shown (fun t => (t.lines.pins[5], t.lines.pins[6], t.conds.hostSilent, t.now))
      (exec .hostSilentTimeout outputsExample) = some (.low, .high, { active := true, latched := true }, 5120000) := by
  decide +kernel

/-! ## The example of the life of one point (chapter 4) -/

theorem test_point_goes_stale_past_its_limit :
    (Point.aged { newPoint { address := 4, number := 1 } 2 2 .good with age := 2 }).quality = .stale := by decide +kernel
theorem test_point_stays_good_at_its_limit :
    (Point.aged { newPoint { address := 4, number := 1 } 2 2 .good with age := 1 }).quality = .good := by decide +kernel

/-! ## The example of due slots (chapter 1) -/

theorem test_slot_280_due_in_cycle_3_alone :
    (List.range 5).map (fun n => Slot.due { offset := 280, address := 7, number := 0, divisor := 4, phase := 3 }
      (BitVec.ofNat 32 n)) = [false, false, false, true, false] := by decide +kernel

/-- Of two skips at one instant the lower offset is the first, whichever comes first; of two instants the earlier is (R21). -/
theorem test_first_skip :
    ((recordSkip 90 .collision (recordSkip 100 .late plant)).sched.summary.first.map (·.offset),
      (recordSkip 100 .late (recordSkip 90 .collision plant)).sched.summary.first.map (·.offset),
      (recordSkip 90 .collision { recordSkip 100 .late plant with now := 10241 }).sched.summary.first.map (·.offset)) =
      (some 90, some 90, some 100) := by decide +kernel

/-- A slot skipped LATE in a cycle whose MARK never goes out is recorded as OVERRUN at the boundary (R19). -/
theorem test_late_slot_of_a_dropped_mark_is_an_overrun :
    shown (fun t => t.reports.unsent.getLast?.map (fun r => (r.kind, r.body)))
      (exec .boundary (skipLate 10 { plant with sched := { plant.sched with markWaiting := true } })) =
      some (some (.slotsSkipped, [0, 0, 0, 0, 1, 0, 10, 2])) := by decide +kernel

/-! ## Witnesses: the hypotheses of each statement are met together -/

/-! ### The queue of commands and the taking of requests -/

theorem test_witness_stepRunsFrontCommand :
    ({ State.reset with pending := [.boundary] } : State).pending = .boundary :: [] ∧ State.reset.pending = [] :=
  ⟨rfl, rfl⟩

theorem test_witness_commandKeepsQueueAndClock : ∃ t, exec .boundary plant = .next t := ⟨_, rfl⟩

theorem test_witness_heldResetIgnoresCommands :
    ({ plant with inReset := true } : State).inReset = true ∧ Instr.boundary ≠ .resetPinAsserted ∧
      (∀ cause, Instr.boundary ≠ .hardReset cause) ∧ ∀ i v, Instr.boundary ≠ .localLinePinChange i v :=
  ⟨rfl, nofun, nofun, nofun⟩

/-- A pin follows the outside while the part is held in reset, and its INPUT line sees nothing of it. -/
theorem test_pin_in_reset :
    shown (fun t => (t.lines.pins[2], t.lines.records[2]))
      (exec (.localLinePinChange 2 .high) (withLine 2 (.input (input41 0)) { plant with inReset := true })) =
      some (.high, .input (input41 0)) := by decide +kernel

/-- A report frame on its way out, and a response waiting behind it. -/
def respondingPlant : State :=
  { plant with link := { plant.link with
      sending := some { cls := 3, code := 1, num := 0, payload := [0] }
      waiting := some { cls := 2, code := 0x71, num := 1, payload := [0] } } }

theorem test_witness_requestWaits_responseInHand : respondingPlant.link.responseInHand = true := rfl

theorem test_witness_requestWaits_anotherAhead :
    ∃ g rest, ({ plant with link := { plant.link with buffer := [requestFrame .stop 3 []] } } : State).link.buffer =
      g :: rest ∧ g ≠ requestFrame .start 3 [] := ⟨_, _, rfl, by decide⟩

/-- A SEND numbered 301 was the last request taken. -/
def sendTaken : State :=
  { plant with link := { plant.link with
      lastRequest := some
        { code := 0x40, num := 301, response := { cls := 2, code := 0x40, num := 301, payload := [0] } } } }

theorem test_witness_requestReplays :
    let s := State.got sendTaken .send 301 [4, 9, 0, 1, 0]
    Taken (requestFrame .send 301 [4, 9, 0, 1, 0]) s ∧
      ∃ l, s.link.lastRequest = some l ∧ l.code = requestCode .send ∧ l.num = 301 ∧ (301 : Word16) ≠ 0 :=
  ⟨⟨rfl, rfl, rfl⟩, _, rfl, rfl, rfl, by decide⟩

theorem test_witness_requestArrives :
    plant.inReset = false ∧ plant.link.responseInHand = false ∧ plant.link.buffer = [] := ⟨rfl, rfl, rfl⟩

theorem test_send_301_resent_is_replayed :
    answerOf (exec (.send 301 [4, 9, 0, 1, 0]) sendTaken) = some [0] ∧
      shown (·.outbound) (exec (.send 301 [4, 9, 0, 1, 0]) sendTaken) = some [] := by decide +kernel

theorem test_witness_badLength :
    FreshAt plant .configure 1 (List.replicate 195 0) ∧
      ¬ LengthOf .configure (List.replicate 195 (0 : Byte)).length ∧ LengthOf .configure 192 ∧
      ¬ LengthOf .send 3 ∧ LengthOf .send 4 ∧ LengthOf .send 52 ∧ ¬ LengthOf .send 53 ∧ ¬ LengthOf .setLine 1 ∧
      LengthOf .setLine 9 ∧ LengthOf .clearConditions 6 ∧ ¬ LengthOf .clearConditions 7 :=
  ⟨got_fresh rfl rfl rfl, by rw [List.length_replicate]; simp [LengthOf]⟩

theorem test_witness_modeRefusals :
    (let s := State.got plant .configure 1 []
     TakenFresh (requestFrame .configure 1 []) s ∧ s.sched.mode ≠ .config) ∧
    (let s := State.got plant .start 1 []
     TakenFresh (requestFrame .start 1 []) s ∧ s.sched.mode ≠ .config) ∧
    (let s := State.got State.reset .stop 1 []
     TakenFresh (requestFrame .stop 1 []) s ∧ s.sched.mode ≠ .run) ∧
    (let s := State.got State.reset .send 1 [4, 9, 0, 1]
     TakenFresh (requestFrame .send 1 [4, 9, 0, 1]) s ∧ s.sched.mode ≠ .run) :=
  ⟨⟨got_fresh rfl rfl rfl, by decide⟩, ⟨got_fresh rfl rfl rfl, by decide⟩,
    ⟨got_fresh rfl rfl rfl, by decide⟩, got_fresh rfl rfl rfl, by decide⟩

theorem test_witness_unknownCode :
    (TakenFresh { code := 0x0C, num := 1, payload := [] }
      (plant.setLink { plant.link with buffer := [{ code := 0x0C, num := 1, payload := [] }] }) ∧
      codeKnown 0x0C = false) ∧ codeKnown 0x0B = true ∧
      codeKnown 0x1F = false ∧ codeKnown 0x20 = true ∧ codeKnown 0x26 = true ∧ codeKnown 0x27 = false ∧
      codeKnown 0x73 = true ∧ codeKnown 0x74 = false :=
  ⟨⟨⟨⟨rfl, rfl, rfl⟩, nofun⟩, by decide +kernel⟩, by decide +kernel⟩

/-! ### Requests that read -/

theorem test_witness_reads (num : Word16) :
    FreshAt plant .readConfig num [] ∧ FreshAt plant .identify num [] ∧
      FreshAt plant .readConditions num [] ∧ FreshAt plant .status num [] ∧
      FreshAt plant .readLines num [] ∧ FreshAt plant .listMessages num [] :=
  ⟨got_fresh rfl rfl rfl, got_fresh rfl rfl rfl, got_fresh rfl rfl rfl, got_fresh rfl rfl rfl, got_fresh rfl rfl rfl,
    got_fresh rfl rfl rfl⟩

theorem test_witness_status_options :
    (∃ r, (withRecord (.slot 10) .cue .receiving none plant).txn.record = some r) ∧ plant.txn.record = none ∧
      (withMessage { message4 9 .normal with state := .inFlight } plant).outbound.find? (fun m => m.state == .inFlight) =
        some { message4 9 .normal with state := .inFlight } ∧
      plant.outbound.find? (fun m => m.state == .inFlight) = none := ⟨⟨_, rfl⟩, by decide +kernel⟩

/-- R191: the transaction unit idle and no message in flight: bytes 16 to 18 and 34 to 35 are zeros. -/
theorem test_status_of_an_idle_part :
    (answerOf (exec (.status 1 []) plant)).map (fun p => ((p.drop 17).take 3, (p.drop 35).take 2)) =
      some ([0, 0, 0], [0, 0]) := by decide +kernel

theorem test_witness_keyedReads (num : Word16) :
    FreshAt plant .readSlots num [1, 0, 0] ∧ FreshAt plant .readSlots num [2, 0, 0] ∧
      FreshAt plant .readDevice num [62] ∧ FreshAt plant .readDevice num [63] ∧
      FreshAt plant .listDevices num [4] ∧ FreshAt plant .listDevices num [5] ∧
      FreshAt plant .readPoint num [62, 15] ∧ FreshAt plant .readPoint num [62, 16] :=
  ⟨got_fresh rfl rfl rfl, got_fresh rfl rfl rfl, got_fresh rfl rfl rfl, got_fresh rfl rfl rfl, got_fresh rfl rfl rfl,
    got_fresh rfl rfl rfl, got_fresh rfl rfl rfl, got_fresh rfl rfl rfl⟩

theorem test_reads_at_their_bounds :
    (answerOf (exec (.readSlots 1 [2, 0, 0]) plant), answerOf (exec (.readDevice 1 [63]) plant),
      answerOf (exec (.listDevices 1 [5]) plant), answerOf (exec (.readPoint 1 [62, 16]) plant)) =
      (some [0x03], some [0x03], some [0x03], some [0x03]) := by decide +kernel

theorem test_reads_within_their_bounds :
    ((answerOf (exec (.readDevice 1 [62]) plant)).map (·.head?), answerOf (exec (.listDevices 1 [1]) plant),
      answerOf (exec (.readPoint 1 [62, 15]) plant)) = (some (some 0), some [0, 1, 1, 4], some [0x09]) := by
  decide +kernel

/-! ### Chapter 1: the cycle -/

theorem test_witness_configureApplies :
    let es := [(1, 50), (2, 255), (3, 16), (4, 160), (5, 15), (6, 4), (7, 1), (8, 60000)]
    let s := State.got State.reset .configure 1 (Wire.configure es)
    TakenFresh (requestFrame .configure 1 (Wire.configure es)) s ∧ s.sched.mode = .config ∧
      (∀ e ∈ es, ParamAllowed e.1 e.2) ∧ (es.map (·.1)).Nodup ∧
      ∀ e ∈ es, e.1 = 1 → ∀ x ∈ s.sched.active ++ s.sched.shadow, x.offset < e.2 :=
  ⟨got_fresh rfl rfl rfl, rfl, by simp [ParamAllowed], by decide +kernel, by decide +kernel⟩

/-- In CONFIG with a slot at offset 50. -/
def slot50 : State := withSlot (slot41 50) (withPoint 4 1 2 .offline State.reset)

theorem test_witness_configureRefuses_badEntry :
    let es := [(2, 10), (2, 11)]
    let s := State.got slot50 .configure 1 (Wire.configure es)
    TakenFresh (requestFrame .configure 1 (Wire.configure es)) s ∧ s.sched.mode = .config ∧ es.length ≤ 64 ∧
      (∀ e ∈ es, e.1 < 256 ∧ e.2 < 65536) ∧ es = [(2, 10)] ++ (2, 11) :: [] ∧ ParamAllowed 2 10 ∧
      2 ∈ [(2, 10)].map (fun e : Nat × Nat => e.1) ∧ ¬ ParamAllowed 1 49 ∧ ¬ ParamAllowed 8 9 ∧
      ¬ ParamAllowed 8 60001 ∧ ¬ ParamAllowed 4 41 ∧ ¬ ParamAllowed 0 0 ∧ ¬ ParamAllowed 9 0 :=
  ⟨got_fresh rfl rfl rfl, rfl, by decide, by decide, rfl, by simp [ParamAllowed]⟩

theorem test_witness_configureRefuses_period :
    let s := State.got slot50 .configure 1 (Wire.configure [(1, 50)])
    TakenFresh (requestFrame .configure 1 (Wire.configure [(1, 50)])) s ∧ s.sched.mode = .config ∧
      ParamAllowed 1 50 ∧ slot41 50 ∈ s.sched.active ++ s.sched.shadow ∧
      (∀ y ∈ s.sched.active ++ s.sched.shadow, y.offset ≤ (slot41 50).offset) ∧ 50 ≤ (slot41 50).offset :=
  ⟨got_fresh rfl rfl rfl, rfl, by simp [ParamAllowed], by decide +kernel⟩

theorem test_witness_start :
    let s := State.got slot50 .start 1 []
    TakenFresh (requestFrame .start 1 []) s ∧ s.sched.mode = .config ∧ s.keysDistinct :=
  ⟨got_fresh rfl rfl rfl, rfl, by unfold State.keysDistinct; decide +kernel⟩

theorem test_witness_stop :
    let s := State.got plant .stop 1 []
    TakenFresh (requestFrame .stop 1 []) s ∧ s.sched.mode = .run ∧ s.keysDistinct :=
  ⟨got_fresh rfl rfl rfl, rfl, by unfold State.keysDistinct; decide +kernel⟩

theorem test_witness_slotAndSwapRequests (num : Word16) :
    FreshAt plant .addSlot num [0x03, 0xE7, 62, 15, 32, 31] ∧
      FreshAt plant .deleteSlot num [0, 50] ∧ FreshAt plant .clearShadow num [] ∧
      FreshAt plant .copyActive num [] ∧ FreshAt plant .swap num [] ∧
      FreshAt plant .cancelSwap num [] :=
  ⟨got_fresh rfl rfl rfl, got_fresh rfl rfl rfl, got_fresh rfl rfl rfl, got_fresh rfl rfl rfl, got_fresh rfl rfl rfl,
    got_fresh rfl rfl rfl⟩

/-! ### Chapter 3: the roster -/

/-- Station 5 HELD beside the plant. -/
def heldPlant : State := withStation 5 .held plant

theorem test_witness_admit :
    let s := State.got heldPlant .admitStation 1 [5]
    TakenFresh (requestFrame .admitStation 1 [5]) s ∧ (s.entry 5).state = .held ∧
      (s.entry 5).seen = some (identity 5) ∧ s.keysDistinct ∧
      (s.entry 62).state ≠ .held ∧ ¬ (1 ≤ (0 : Byte).toNat) ∧ 62 < (63 : Byte).toNat :=
  ⟨got_fresh rfl rfl rfl, by decide +kernel, by decide +kernel,
    by unfold State.keysDistinct; decide +kernel, by decide +kernel⟩

theorem test_witness_bar_inactive :
    FreshAt plant .bar 1 [62] ∧ plant.stationActive 62 = false ∧
      FreshAt plant .bar 1 [63] := ⟨got_fresh rfl rfl rfl, by decide +kernel, got_fresh rfl rfl rfl⟩

/-- Station 4 with a message, a waiting slot and a pending trigger. -/
def busyPlant : State :=
  withLine 2 (.input { input41 2 with pending := true })
    (withMessage (message4 9 .normal) (withSlot (slot41 10) { plant with sched := { plant.sched with waiting := [10] } }))

theorem test_witness_bar_active :
    let s := State.got busyPlant .bar 1 [4]
    TakenFresh (requestFrame .bar 1 [4]) s ∧ s.stationActive 4 = true ∧ s.keysDistinct ∧
      s.tagsDistinct :=
  ⟨got_fresh rfl rfl rfl, by decide +kernel, by unfold State.keysDistinct; decide +kernel,
    by unfold State.tagsDistinct; decide +kernel⟩

theorem test_witness_unbar_provision_forget (num : Word16) :
    FreshAt plant .unbar num [4] ∧
      FreshAt plant .provision num (62 :: identityBytes (identity 62)) ∧
      FreshAt plant .forget num [63] :=
  ⟨got_fresh rfl rfl rfl, got_fresh rfl rfl rfl, got_fresh rfl rfl rfl⟩

/-! ### Chapters 4, 6 and 7: points, messages, reports -/

theorem test_witness_pointRequests (num : Word16) :
    FreshAt plant .declare num [62, 15, 32, 255] ∧ FreshAt plant .withdraw num [4, 1] ∧
      FreshAt plant .watch num [4, 1, 2] ∧ plant.keysDistinct :=
  ⟨got_fresh rfl rfl rfl, got_fresh rfl rfl rfl, got_fresh rfl rfl rfl, by unfold State.keysDistinct; decide +kernel⟩

theorem test_withdraw_of_a_bound_point_names_the_line :
    answerOf (exec (.withdraw 1 [4, 1]) (withLine 2 (.input (input41 2)) plant)) = some [0x0A, 2, 0, 2] := by
  decide +kernel

theorem test_witness_send :
    let s := State.got plant .send 1 ([4, 9, 1, 4] ++ List.replicate 48 0)
    TakenFresh (requestFrame .send 1 ([4, 9, 1, 4] ++ List.replicate 48 0)) s ∧ s.sched.mode = .run ∧
      (List.replicate 48 (0 : Byte)).length ≤ 48 := ⟨got_fresh rfl rfl rfl, rfl, by decide +kernel⟩

theorem test_witness_cancel :
    let s := State.got busyPlant .cancel 1 [9]
    TakenFresh (requestFrame .cancel 1 [9]) s ∧ s.tagsDistinct :=
  ⟨got_fresh rfl rfl rfl, by unfold State.tagsDistinct; decide +kernel⟩

theorem test_witness_ack :
    FreshAt levelsExample .ackReports 1 [0, 39] ∧
      (∃ pre e post, levelsExample.reports.sent = pre ++ e :: post ∧
      e.seq.toNat = (0 : Byte).toNat * 256 + (39 : Byte).toNat ∧
        ∀ d ∈ pre, d.seq ≠ e.seq) ∧
      ∀ e ∈ levelsExample.reports.sent, e.seq.toNat ≠ (0 : Byte).toNat * 256 + (41 : Byte).toNat :=
  ⟨got_fresh rfl rfl rfl,
    ⟨sentFrom 38 1, { report := reportOf .deviceLost 3 [], seq := 39, resendDue := false }, sentFrom 40 1,
      by decide +kernel⟩, by decide +kernel⟩

theorem test_witness_resend_setLevel (num : Word16) :
    FreshAt levelsExample .resendReports num [] ∧
      FreshAt levelsExample .setLevel num [4, 3] ∧
      FreshAt levelsExample .setLevel num [15, 0] :=
  ⟨got_fresh rfl rfl rfl, got_fresh rfl rfl rfl, got_fresh rfl rfl rfl⟩

/-- A report raised at level 0, where its point has an UNSENT entry, with room, and into a full queue with and without an
entry of a lower level. -/
theorem test_witness_raise :
    (levelsExample.reports.levelOf .lineEdge ≠ 0 ∧ levelsExample.reports.places < 32 ∧
      (∃ e ∈ levelsExample.reports.unsent, e.kind = .pointChanged ∧ e.body.take 2 = [17, 0]) ∧
      ∀ e ∈ levelsExample.reports.unsent, ¬ (ReportKind.lineEdge = .pointChanged ∧ e.kind = .pointChanged)) ∧
    (fullExample.reports.levelOf .deviceHeld = 3 ∧ 32 ≤ fullExample.reports.places ∧
      fullExample.reports.levelOf .lineEdge = 1 ∧ ∀ e ∈ fullExample.reports.unsent, 1 ≤ e.level) ∧
    ({ plant.reports with levels := plant.reports.levels.setIfInBounds 19 0 } : ReportQueue).levelOf .lineEdge = 0 := by
  decide +kernel

theorem test_witness_clearConditions :
    (FreshAt plant .clearConditions 1 [0, 5] ∧ (∀ b ∈ ([0, 5] : List Byte), b.toNat ≤ 5) ∧
      ([0, 5] : List Byte).Nodup) ∧
    (FreshAt plant .clearConditions 1 [6] ∧
      ¬ ((∀ b ∈ ([6] : List Byte), b.toNat ≤ 5) ∧ ([6] : List Byte).Nodup)) :=
  ⟨⟨got_fresh rfl rfl rfl, by decide +kernel⟩, got_fresh rfl rfl rfl, by decide +kernel⟩

/-! ### Chapter 8: local lines -/

theorem test_witness_setLine_refused (num : Word16) :
    FreshAt plant .setLine num (8 :: 0 :: []) ∧ 7 < (8 : Byte).toNat ∧
      FreshAt plant .setLine num (7 :: 1 :: [0, 0]) ∧ ([0, 0] : List Byte).length ≠ 6 :=
  ⟨got_fresh rfl rfl rfl, by decide, got_fresh rfl rfl rfl, by decide⟩

theorem test_witness_setLine_outOfRange (num : Word16) :
    FreshAt plant .setLine num (7 :: 1 :: [3, 0, 0, 0, 0, 0]) ∧ FreshAt plant .setLine num (7 :: 1 :: [0, 16, 0, 0, 0, 0]) ∧
      FreshAt plant .setLine num (7 :: 1 :: [0, 0, 0, 1, 63, 15]) ∧
      FreshAt plant .setLine num (7 :: 1 :: [0, 0, 0, 1, 62, 16]) ∧ FreshAt plant .setLine num (7 :: 2 :: [3, 1]) ∧
      FreshAt plant .setLine num (7 :: 2 :: [2, 2]) ∧ FreshAt plant .setLine num (7 :: 3 :: [2, 1, 0, 0, 0, 7, 1]) ∧
      FreshAt plant .setLine num (7 :: 3 :: [2, 1, 4, 1, 0, 8, 1]) :=
  ⟨got_fresh rfl rfl rfl, got_fresh rfl rfl rfl, got_fresh rfl rfl rfl, got_fresh rfl rfl rfl, got_fresh rfl rfl rfl,
    got_fresh rfl rfl rfl, got_fresh rfl rfl rfl, got_fresh rfl rfl rfl⟩

theorem test_setLine_takes_the_bounds_and_no_more :
    [[7, 1, 2, 15, 1, 1, 4, 1], [7, 1, 2, 16, 1, 1, 4, 1], [7, 2, 2, 1], [7, 2, 3, 1], [7, 3, 2, 1, 4, 1, 1, 7, 1],
      [7, 3, 2, 1, 4, 1, 1, 8, 1]].map (fun p => answerOf (exec (.setLine 1 p) plant)) =
      [some [0], some [3], some [0], some [3], some [0], some [3]] := by decide +kernel

theorem test_witness_setLine (num : Word16) :
    FreshAt plant .setLine num (Wire.setLineOff 7) ∧
      FreshAt plant .setLine num (Wire.setLineInput 7 .both 15 true none) ∧
      FreshAt plant .setLine num (Wire.setLineInput 7 .both 15 true (some { address := 4, number := 1 })) ∧
      ({ address := 4, number := 1 } : Key).valid = true ∧ ({ address := 62, number := 15 } : Key).valid = true ∧
      FreshAt plant .setLine num (Wire.setLineHost 7 .hold .high) ∧
      FreshAt plant .setLine num (Wire.setLineMirror 7 .hold .high { address := 4, number := 1 } 1 7 true) :=
  ⟨got_fresh rfl rfl rfl, got_fresh rfl rfl rfl, got_fresh rfl rfl rfl, by decide +kernel, by decide +kernel,
    got_fresh rfl rfl rfl, got_fresh rfl rfl rfl⟩

theorem test_setLine_mirror_shows_safe_until_good :
    shown (fun t => (t.lines.records[3], t.lines.pins[3]))
      (exec (.setLine 1 (Wire.setLineMirror 3 .high .low { address := 4, number := 1 } 1 0 false)) plant) =
      some (.outputMirror { safe := .high, current := .high, held := .low, binding := { address := 4, number := 1 }
                            byteIndex := 1, bitIndex := 0, invert := false }, .high) := by decide +kernel

/-- R145, log 7: an output takes its level at once; one that stays at the level it drives leaves an overdriven pin alone. -/
theorem test_setLine_drives_the_pin :
    [shown (·.lines.pins[6]) (exec (.setLine 1 (Wire.setLineHost 6 .low .high)) plant),
      shown (·.lines.pins[6]) (exec (.setLine 1 (Wire.setLineHost 6 .low .high))
        (setPin 6 .low (withLine 6 (newHost .low .high) plant))),
      shown (·.lines.pins[6]) (exec (.setLine 1 (Wire.setLineOff 6)) (withLine 6 (newHost .low .high) plant))] =
      [some .high, some .low, some .high] := by decide +kernel

theorem test_witness_writeLine :
    (FreshAt outputsExample .writeLine 1 [6, 1] ∧ (6 : Byte).toNat = (6 : Fin 8).val ∧
      outputsExample.lines.records[(6 : Fin 8)] =
        .outputHost { safe := .hold, current := .high, held := .high, forcedSafe := false }) ∧
    (FreshAt outputsExample .writeLine 1 [7, 0] ∧ (7 : Byte).toNat = (7 : Fin 8).val ∧
      ∀ l, outputsExample.lines.records[(7 : Fin 8)] ≠ .outputHost l) ∧
    FreshAt outputsExample .writeLine 1 [8, 0] ∧ 7 < (8 : Byte).toNat ∧ 1 < (2 : Byte).toNat :=
  ⟨⟨got_fresh rfl rfl rfl, by decide +kernel⟩,
    ⟨got_fresh rfl rfl rfl, rfl, by
      have h : outputsExample.lines.records[(7 : Fin 8)] = .off := by decide +kernel
      rw [h]
      nofun⟩,
    got_fresh rfl rfl rfl, by decide⟩

/-! ### Chapter 10: the link and the resets -/

theorem test_witness_rate_restart (num : Word16) :
    FreshAt plant .setLinkRate num (Wire.setLinkRate .b460800) ∧
      FreshAt plant .setLinkRate num [0, 0, 0, 1] ∧
      bytesAt [0, 0, 0, 1] 0 4 ∉ [115200, 230400, 460800, 921600] ∧ FreshAt plant .restart num [] :=
  ⟨got_fresh rfl rfl rfl, got_fresh rfl rfl rfl, by decide +kernel, got_fresh rfl rfl rfl⟩

/-- The receive assembler holds some bytes. -/
def assemblingPlant (bs : List Byte) : State := { plant with link := { plant.link with assembler := .assembling bs } }

theorem test_witness_assembler :
    plant.inReset = false ∧ plant.link.assembler = .hunting ∧ (assemblingPlant []).link.assembler = .assembling [] ∧
      (assemblingPlant (4 :: [1])).link.assembler = .assembling (4 :: [1]) ∧ (3 : Byte).toNat < 4 ∧
      196 < (197 : Byte).toNat :=
  ⟨rfl, rfl, rfl, rfl, by decide, by decide⟩

theorem test_len_at_its_bounds :
    (shown (·.link.assembler) (exec (.linkByteReceived 196) (assemblingPlant [])),
      shown (·.link.assembler) (exec (.linkByteReceived 197) (assemblingPlant [])),
      shown (·.link.formatTally) (exec (.linkByteReceived 3) (assemblingPlant []))) =
      (some (.assembling [196]), some .hunting, some 1) := by decide +kernel

/-- The bytes of a STATUS request numbered 302, LEN to CRC. -/
def statusFrame : List Byte :=
  [4, 1, 0x71, 0x01, 0x2E] ++ crcBytes [4, 1, 0x71, 0x01, 0x2E]

/-- A whole frame waits to be judged. -/
def completePlant (bs : List Byte) : State := { plant with link := { plant.link with assembler := .complete bs } }

theorem test_witness_frameJudged :
    (completePlant statusFrame).link.assembler = .complete statusFrame ∧
      (let inner := [byteOf (([] : List Byte).length + 4), 1, 0x71] ++ be16 (302 : Word16).toNat ++ []
       statusFrame = inner ++ crcBytes inner) ∧
      crcSound (statusFrame ++ [0]) = false ∧
      (crcSound ([4, 2, 0, 0, 0] ++ crcBytes [4, 2, 0, 0, 0]) = true ∧
        ([4, 2, 0, 0, 0] ++ crcBytes [4, 2, 0, 0, 0]).getD 1 0 ≠ 1) :=
  ⟨rfl, by decide +kernel⟩

theorem test_third_frame_is_an_overrun :
    shown (fun t => (t.link.buffer.length, t.link.overrunTally, t.hold))
      (exec .linkFrameReceived { completePlant statusFrame with link := { (completePlant statusFrame).link with
        buffer := [requestFrame .stop 1 [], requestFrame .start 2 []] } }) = some (2, 1, true) := by decide +kernel

/-- R177: HOLD is released when the first of two requests is taken. -/
theorem test_hold_is_released_as_a_place_frees :
    let s := plant.setLink { plant.link with buffer := [requestFrame .readConfig 1 [], requestFrame .identify 2 []] }
    (s.hold, shown (·.hold) (exec (.readConfig 1 []) s), { s with inReset := true }.hold) = (true, some false, false) := by
  decide +kernel

/-- A frame of a class on its way out. -/
def sendingPlant (cls : Byte) (newRate : Option LinkRate) (restart : Bool) : State :=
  { plant with link := { plant.link with
      sending := some { cls := cls, code := 0x72, num := 40, payload := [0] }, newRate := newRate
      restartDue := restart } }

theorem test_witness_frameSent :
    (sendingPlant 3 none false).inReset = false ∧
      (∃ f, (sendingPlant 3 none false).link.sending = some f ∧ f.cls ≠ 2) ∧
      (∃ f, (sendingPlant 2 none false).link.sending = some f ∧ f.cls = 2 ∧
        (sendingPlant 2 none false).link.restartDue = false ∧ (sendingPlant 2 none false).link.newRate = none) ∧
      (∃ f, (sendingPlant 2 (some .b460800) false).link.sending = some f ∧ f.cls = 2 ∧
        (sendingPlant 2 (some .b460800) false).link.newRate = some .b460800) ∧
      ∃ f, (sendingPlant 2 none true).link.sending = some f ∧ f.cls = 2 ∧
        (sendingPlant 2 none true).link.restartDue = true :=
  ⟨rfl, ⟨_, rfl, by decide⟩, ⟨_, rfl, rfl, rfl, rfl⟩, ⟨_, rfl, rfl, rfl⟩, ⟨_, rfl, rfl, rfl⟩⟩

theorem test_rate_takes_effect_after_the_response :
    shown (fun t => (t.link.rate, t.link.newRate)) (exec .linkFrameSent (sendingPlant 2 (some .b460800) false)) =
      some (.b460800, none) := by decide +kernel

/-- R172: a frame of nine bytes at 115200 baud leaves TXD in 90 bit periods, which are 8000 clock periods. -/
theorem test_nine_bytes_leave_in_8000_clocks :
    shown (fun t => (t.now, t.link.sending)) (exec .linkFrameSent { sendingPlant 3 none false with now := 0 }) = some (8000, none) := by
  decide +kernel

/-- R172: SYNC on TXD is a low start bit, C3h from its least significant bit on, and a high stop bit; LEN begins low, and
TXD is high when the last stop bit has left. -/
theorem test_txd_shows_sync :
    ([40, 130, 220, 310, 400, 490, 580, 670, 760, 850, 930, 8000].map
      fun t => ({ sendingPlant 3 none false with now := t } : State).txd) =
      [false, true, true, false, false, false, false, true, true, true, false, true] := by decide +kernel

theorem test_witness_txd :
    plant.link.sending = none ∧ (sendingPlant 3 none false).link.sending ≠ none ∧
      ([40 * 115200 / 10240000, 8000 * 115200 / 10240000] : List Nat) = [0, 90] := by decide +kernel

theorem test_witness_reportTaken :
    (levelsExample.inReset = false ∧ levelsExample.link.sending = none ∧ levelsExample.link.waiting = none) ∧
      ((∀ d ∈ levelsExample.reports.sent, d.resendDue = false) ∧ levelsExample.reports.sent.length < 8 ∧
        levelsExample.reports.unsent = [reportOf .pointChanged 1 [17, 0]] ++ reportOf .deviceJoined 2 [40] :: [] ∧
        (∀ x ∈ [reportOf .pointChanged 1 [17, 0]], x.level < (reportOf .deviceJoined 2 [40]).level)) ∧
      (sentFrom 100 8).length = 8 ∧ ∀ d ∈ sentFrom 100 8, d.resendDue = false := by decide +kernel

theorem test_witness_resendDue :
    ∃ pre e post, ((sentFrom 41 2).map fun e => { e with resendDue := e.seq = 42 }) = pre ++ e :: post ∧
      (∀ d ∈ pre, d.resendDue = false) ∧ e.resendDue = true :=
  ⟨sentFrom 41 1, { report := reportOf .deviceLost 3 [], seq := 42, resendDue := true }, [], by decide +kernel⟩

theorem test_witness_softReset :
    (sendingPlant 2 none true).inReset = false ∧ (sendingPlant 2 none true).link.restartDue = true ∧
      ∃ f, (sendingPlant 2 none true).link.sending = some f ∧ f.cls = 2 := ⟨rfl, rfl, _, rfl, rfl⟩

theorem test_witness_hostSilence :
    (outputsExample.inReset = false ∧ outputsExample.sched.params.holdTime ≠ 0 ∧
      outputsExample.conds.hostSilent.active = false) ∧ plant.sched.params.holdTime = 0 := by decide +kernel

/-! ### Chapter 1: the events of the cycle -/

theorem test_witness_boundary :
    plant.inReset = false ∧ plant.sched.mode = .run ∧ plant.keysDistinct :=
  ⟨rfl, rfl, by unfold State.keysDistinct; decide +kernel⟩

/-- A waiting MARK on a line that permits a start. -/
def markPlant : State := { plant with sched := { plant.sched with markWaiting := true } }

/-- Slot 10 in cycle 0, and whether it waits. -/
def slotPlant (waits : Bool) : State :=
  withSlot (slot41 10) { plant with sched := { plant.sched with waiting := if waits then [10] else [] } }

theorem test_witness_claims :
    (markPlant.inReset = false ∧ markPlant.sched.mode = .run ∧ markPlant.sched.markWaiting = true ∧
      markPlant.linePermits = true) ∧
    (slotAt (slotPlant false).sched.active 10 = some (slot41 10) ∧
      (slotPlant false).sched.cycle.toNat % (slot41 10).divisor = (slot41 10).phase ∧
      10 ∉ (slotPlant false).sched.presented ∧ (slotPlant false).sched.mode = .run) ∧
    ((slotPlant true).sched.waiting = 10 :: [] ∧ 10 ∉ ([] : List Nat) ∧
      slotAt (slotPlant true).sched.active 10 = some (slot41 10) ∧ (slotPlant true).sched.markWaiting = false ∧
      (slotPlant true).linePermits = true ∧
      (slotPlant true).now ≤ (slotPlant true).sched.cycleStart + (10 + (slotPlant true).sched.params.tolerance) * 1024) ∧
    10 ∈ (slotPlant true).sched.waiting ∧ 10 ∉ (slotPlant false).sched.waiting := by decide +kernel

/-- What holds a start back: no MARK waits or no slot, the MARK waits, the line does not permit, the span is over; and a slot
that is not due or has been presented. -/
theorem test_witness_claims_held_back :
    plant.sched.markWaiting = false ∧ plant.sched.waiting = [] ∧ State.reset.sched.mode ≠ .run ∧
      (withRecord .probe .roll .receiving none (slotPlant true)).linePermits = false ∧
      { (slotPlant true) with sched := { (slotPlant true).sched with markWaiting := true } }.sched.markWaiting = true ∧
      { slotPlant true with now := 20481 }.sched.cycleStart +
        (10 + (slotPlant true).sched.params.tolerance) * 1024 < { slotPlant true with now := 20481 }.now ∧
      slotAt (slotPlant true).sched.active 11 = none ∧
      10 ∈ { (slotPlant true) with sched := { (slotPlant true).sched with presented := [10] } }.sched.presented := by
  decide +kernel

/-- R20: slot 10 is taken while slots 5 and 20 wait, and starts behind slot 5. -/
theorem test_slots_wait_in_ascending_order :
    shown (fun t => (t.sched.waiting, t.sched.presented))
      (exec (.slotDue 10) { (slotPlant false) with
        sched := { (slotPlant false).sched with waiting := [5, 20], presented := [2, 5, 20] } }) =
      some ([5, 10, 20], [2, 5, 10, 20]) := by decide +kernel

theorem test_slot_starts_on_the_last_instant_of_its_span :
    (shown (·.sched.waiting) (exec .slotStart { slotPlant true with now := 20480 }),
      shown (·.sched.waiting) (exec .slotStart { slotPlant true with now := 20481 })) = (some [], some [10]) := by
  decide +kernel

/-- STOPPING, with a message held. -/
def stoppingPlant : State := { busyPlant with sched := { busyPlant.sched with mode := .stopping, waiting := [] } }

theorem test_witness_stoppingEnd :
    (stoppingPlant.inReset = false ∧ stoppingPlant.sched.mode = .stopping ∧ stoppingPlant.txn.record = none) ∧
    (withRecord (.slot 10) .cue .receiving none stoppingPlant).txn.record ≠ none := by decide +kernel

/-! ### Chapters 2 and 9: the transaction and the line -/

/-- A MARK of cycle 0, due at the instant 0, waits for the line at an instant. -/
def markWaits (now : Nat) : State := withRecord (.mark 0 0) .mark (.waitingLine 0) none { plant with now := now }

theorem test_witness_transmitStart :
    let start := fun s : State => max s.now (max s.seg.lastTransition s.seg.lastEndDelimiter + s.bits 8)
    (markWaits 10240).inReset = false ∧ (markWaits 10240).seg.activity = .quiet ∧
      (∃ r, (markWaits 10240).txn.record = some r ∧ r.phase = .waitingLine 0 ∧ r.origin = .mark 0 0) ∧
      (start (markWaits 10240) - 0) / 1024 ≤ (markWaits 10240).sched.params.tolerance ∧
      (markWaits 11264).sched.params.tolerance < (start (markWaits 11264) - 0) / 1024 :=
  ⟨rfl, rfl, ⟨_, rfl, rfl, rfl⟩, by decide +kernel, by decide +kernel⟩

/-- The CUE of 20h 04h 01h on the pins: at 40 kbit/s its first V+ is bit time 12 and its first body bit, a 0, bit time 18. -/
theorem test_witness_segmentPins :
    let s := { plant with seg := { plant.seg with transmitter := .sending [0x20, 4, 1] 0 }, now := 18 * 256 + 200 }
    s.seg.transmitter = .sending [0x20, 4, 1] 0 ∧ (symbolsOf [0x20, 4, 1])[18]? = some .zero ∧
      s.sched.params.rate = .k40 ∧ 0 + 18 * 256 ≤ s.now ∧ s.now < 0 + (18 + 1) * 256 ∧ plant.seg.transmitter = .idle := by
  decide +kernel

theorem test_segment_pins_of_a_cue :
    [(0, 0), (0, 128), (12, 200), (15, 0), (18, 127), (18, 128), (42, 0), (63, 255)].map (fun (x : Nat × Nat) =>
      let s := { plant with seg := { plant.seg with transmitter := .sending [0x20, 4, 1] 0 }, now := x.1 * 256 + x.2 }
      (s.transmitterState, s.segTxen, s.segTx)) =
      [(.preamble, true, true), (.preamble, true, false), (.start, true, true), (.start, true, false),
        (.body, true, false), (.body, true, true), (.check, true, (symbolsOf [0x20, 4, 1])[42]? == some .one),
        (.end_, true, false)] := by decide +kernel

theorem test_mark_is_late_past_the_tolerance :
    (shown (·.conds.cycleLate.latched)
        (exec .transmitStart (markWaits 10240)),
      shown (·.conds.cycleLate.latched) (exec .transmitStart (markWaits 11264))) =
      (some false, some true) := by decide +kernel

/-- The part sends a CUE's body of three bytes since the instant 0; its echo has had a verdict. -/
def sendingCue (echo : Option Verdict) (o : Origin) (k : FrameKind) : State :=
  withRecord o k (.sending 0) (some (.pub 4 1))
    { plant with seg := { plant.seg with transmitter := .sending [0x20, 4, 1] 0, echo := echo } }

theorem test_witness_echoVerdict :
    (sendingCue none (.slot 10) .cue).inReset = false ∧
      (∃ r, (sendingCue none (.slot 10) .cue).txn.record = some r ∧ r.kind ≠ .mark ∧ r.abandonAtEnd = false) ∧
      (sendingCue none (.slot 10) .cue).seg.transmitter = .sending [0x20, 4, 1] 0 ∧
      (sendingCue none (.slot 10) .cue).tagsDistinct ∧
      (∃ r, (sendingCue none (.mark 0 0) .mark).txn.record = some r ∧ r.origin = .mark 0 0 ∧ r.kind = .mark) :=
  ⟨rfl, ⟨_, rfl, by decide, rfl⟩, rfl, by unfold State.tagsDistinct; decide +kernel, ⟨_, rfl, rfl, rfl⟩⟩

/-- The part sends a CUE, and its echo's start delimiter is complete. -/
def echoing : State :=
  let s := sendingCue none (.slot 10) .cue
  s.setSeg { s.seg with
    receiver := .body { start := 0, echo := true, count := 18, lastHalf := false, lastTransition := 0 } false [] [] [] }

theorem test_witness_echo :
    echoing.inReset = false ∧ ∃ f, echoing.seg.receiver = .body f false [] [] [] ∧ f.echo = true :=
  ⟨rfl, _, rfl, rfl⟩

/-- R163: the third symbol of an echo's end delimiter departs from it. -/
theorem test_echo_broken_in_its_end_delimiter :
    endDelimiter[2]? ≠ some .vMinus ∧
      shown (fun t => (t.seg.echo, t.seg.receiver)) (exec (.segmentFrameReceived
        ([0x20, 4, 1, 0].flatMap byteSymbols ++ endDelimiter.take 2 ++ [.vMinus])) echoing) =
      some (some .broken, .drain) := by decide +kernel

/-- R166: the echo's verdict is kept, and then found sound. -/
theorem test_echo_heard_whole_is_sound :
    shown (fun t => (t.seg.echo, t.txn.stray, shown (·.seg.lastEcho) (exec .echoVerdict t)))
      (exec (.segmentFrameReceived (bodySymbols [0x20, 4, 1])) echoing) =
      some (some (.good [0x20, 4, 1] false), 0, some (some .sound)) := by decide +kernel

theorem test_sound_echo_awaits_64_bits_more :
    shown (fun t => t.txn.record.map (·.phase))
      (exec .echoVerdict (sendingCue (some (.good [0x20, 4, 1] false)) (.slot 10) .cue)) =
      some (some (.awaiting ((64 + 64) * 256))) := by decide +kernel

theorem test_no_echo_skips_the_slot_echoLost :
    shown (fun t => (t.txn.record, t.sched.summary.first, t.conds.noEcho.active))
      (exec .echoVerdict (sendingCue none (.slot 10) .cue)) =
      some (none, some { offset := 10, reason := .echoLost, instant := 16384 }, true) := by decide +kernel

/-- A SEND that ends COLLISION gives its attempt back (R110). -/
theorem test_collision_gives_the_attempt_back :
    shown (fun t => t.outbound.map (fun m => (m.state, m.made, m.onLine)))
      (exec .echoVerdict (withMessage { message4 9 .normal with state := .inFlight, made := 1, onLine := true }
        (sendingCue (some .broken) (.outbound 9) .send))) = some [(.inFlight, 0, false)] := by decide +kernel

/-- Station 4 has missed twice, and a record of an origin awaits its answer. -/
def lastMiss (o : Origin) (k : FrameKind) (e : Expected) (body : List Byte) (p : Phase) (s : State) : State :=
  let t := withRecord o k p (some e) (s.setEntry 4 { s.entry 4 with miss := 2 })
  t.setTxn { t.txn with record := t.txn.record.map fun r => { r with body := body } }

/-- The last miss but one of a slot, a message, a trigger and a FETCH. -/
def slotMiss (p : Phase) : State := lastMiss (.slot 10) .cue (.pub 4 1) [0x20, 4, 1] p busyPlant
def sendMiss : State :=
  lastMiss (.outbound 9) .send (.reply 4 9) ([0x80, 4, 9] ++ (message4 9 .normal).payload) (.awaiting 5)
    { busyPlant with outbound := [{ message4 9 .normal with state := .inFlight, made := 1, onLine := true }] }
def triggerMiss : State := lastMiss (.trigger 2) .cue (.pub 4 1) [0x20, 4, 1] (.awaiting 5) busyPlant
def fetchMiss : State := lastMiss .fetch .fetch (.note 4) [0x60, 4] (.awaiting 5) busyPlant

theorem test_witness_unanswered :
    (∃ r, (withRecord (.slot 10) .cue (.awaiting 5) none plant).txn.record = some r ∧ r.phase = .awaiting 5 ∧
      (withRecord (.slot 10) .cue (.awaiting 5) none plant).keepsStation r) ∧
    (∃ r, (withRecord (.outbound 9) .send (.waitingLine 5) none busyPlant).txn.record = some r ∧
      r.phase = .waitingLine 5) ∧
    busyPlant.tagsDistinct :=
  ⟨⟨_, rfl, rfl, fun _ _ _ => by decide +kernel⟩, ⟨_, rfl, rfl⟩, by unfold State.tagsDistinct; decide +kernel⟩

/-- The premises under which the miss that reaches the limit loses the station, for every owner of such a record. -/
theorem test_witness_missLosesStation :
    (∀ s ∈ [slotMiss (.awaiting 5), sendMiss, triggerMiss, fetchMiss], s.inReset = false ∧
      (s.txn.record.map fun r => (r.phase, r.target)) = some (.awaiting 5, 4) ∧ (s.points.map (·.key)).Nodup ∧
      (s.outbound.map (·.tag)).Nodup ∧ (s.entry 4).miss + 1 = s.sched.params.missLimit ∧ s.stationActive 4 = true) ∧
    (slotMiss (.awaiting 5)).RecordLaw ∧ sendMiss.RecordLaw ∧ triggerMiss.RecordLaw ∧ fetchMiss.RecordLaw := by
  refine ⟨by decide +kernel, fun r h => ?_, fun r h => ?_, fun r h => ?_, fun r h => ?_⟩ <;> cases h
  · exact ⟨rfl, 1, rfl, rfl⟩
  · exact ⟨rfl, rfl, _, List.mem_singleton.2 rfl, rfl, rfl, rfl, rfl, rfl⟩
  · refine ⟨⟨rfl, 1, rfl, rfl⟩, fun l hl hc => ?_⟩
    have two : triggerMiss.lines.records[(2 : Fin 8)] = .input { input41 2 with pending := true } := by decide +kernel
    rw [two] at hl
    cases hl
    cases hc
  · exact ⟨rfl, rfl, rfl⟩

/-- The third miss of station 4 raises DEVICE_LOST and then its point's POINT_CHANGED (R35, R58, R59). -/
theorem test_miss_at_the_limit_loses_the_station :
    shown (fun t => ((t.entry 4).state, t.reports.unsent.map (·.kind)))
      (exec .answerWindowExpired (withRecord (.slot 10) .cue (.awaiting 5) none
        (plant.setEntry 4 { plant.entry 4 with miss := 2 }))) =
      some (.lost, [.start, .deviceLost, .pointChanged]) := by decide +kernel

/-- The receiver of the plant's line. -/
def listening (r : Receiver) (a : Activity) : State :=
  { plant with seg := { plant.seg with receiver := r, activity := a } }

theorem test_witness_lineAndReceiver :
    (listening .quiet .quiet).seg.receiver = .quiet ∧
      (∃ f, (listening opening .active).seg.receiver = .locking f 0 none ∧ f.count = 0 ∧ f.echo = false) ∧
      (listening opening .active).txn.record = none ∧ (listening opening .active).seg.activity = .active ∧
      (listening .drain .active).seg.receiver.frame = none ∧ (listening .quiet .quiet).seg.activity = .quiet :=
  ⟨rfl, ⟨_, rfl, rfl, rfl⟩, rfl, rfl, rfl, rfl⟩

theorem test_witness_transitionInAFrame : (listening .drain .active).seg.receiver ≠ .quiet ∧
    (∀ x ∈ [Symbol.vPlus, .vMinus], x = .vPlus ∨ x = .vMinus) ∧ 0 + [Symbol.vPlus, .vMinus].length + 4 + 6 ≤ 32 := by
  decide +kernel

/-- R161, R162: two symbols without a mid-bit transition, four preamble bits and the inverse of the start delimiter; and a
delimiter that ends with bit time 33 comes too late. -/
theorem test_start_delimiter_after_lost_bits :
    let xs := fun (lost n : Nat) => polarised true
      (List.replicate lost .vPlus ++ preambleSymbols.drop (12 - n) ++ startDelimiter)
    let inverted := fun (t : State) => match t.seg.receiver with | .body f i _ _ _ => some (f.count, i) | _ => none
    [(2, 4), (14, 12), (15, 12)].map (fun (x : Nat × Nat) =>
      shown inverted (exec (.startDelimiterCompleted (xs x.1 x.2)) (listening opening .active))) =
      [some (some (12, true)), some (some (32, true)), some none] := by decide +kernel

/-- R30: a transition at the deadline begins the answer; one after it leaves the record to ANSWER_WINDOW_EXPIRED. -/
theorem test_transition_at_and_after_the_deadline :
    let awaits := fun deadline => withRecord (.slot 10) .cue (.awaiting deadline) (some (.pub 4 1)) plant
    let phase := fun t : State => t.txn.record.map (·.phase)
    (shown phase (exec .firstTransition (awaits 10240)), shown phase (exec .firstTransition (awaits 10239)),
      shown (fun t => shown phase (exec .answerWindowExpired t)) (exec .firstTransition (awaits 10240)),
      shown (fun t => shown phase (exec .answerWindowExpired t)) (exec .firstTransition (awaits 10239))) =
      (some (some .receiving), some (some (.awaiting 10239)), some (some (some .receiving)), some (some none)) := by
  decide +kernel

/-- A CUE of slot 10 that is being answered, its answer's start delimiter complete. -/
def answering (e : Expected) (o : Origin) (k : FrameKind) (s : State) : State :=
  withRecord o k .receiving (some e)
    (s.setSeg { s.seg with
      receiver :=
        .body { start := 5000, echo := false, count := 18, lastHalf := false, lastTransition := 9000 } false [] [] [] })

/-- A slot's answer is being received in a state of the receiver. -/
def receivingIn (r : Receiver) : State :=
  withRecord (.slot 10) .cue .receiving (some (.pub 4 1)) (listening r .active)

theorem test_witness_frameGivenUp (f : FrameInProgress) (hf : f.echo = false) :
    (∀ r ∈ [Receiver.locking f 0 none, .seeking f true [], .body f false [] [] []],
      (receivingIn r).inReset = false ∧ (receivingIn r).seg.receiver.frame = some f ∧
        (receivingIn r).seg.activity = .active) ∧
    f.echo = false ∧ (receivingIn opening).tagsDistinct ∧
    ∃ r, (receivingIn opening).txn.record = some r ∧ r.phase = .receiving := by
  refine ⟨fun r h => ?_, hf, by unfold State.tagsDistinct; decide +kernel, _, rfl, rfl⟩
  simp only [List.mem_cons, List.not_mem_nil, or_false] at h
  rcases h with rfl | rfl | rfl <;> exact ⟨rfl, rfl, rfl⟩

/-- R31, R161, R163: the line falls quiet, or the delimiter's time runs out, while an answer is being received. -/
theorem test_given_up_answers_are_garbled :
    [shown (fun t => ((t.entry 4).miss, t.txn.record, t.seg.receiver)) (exec .lineQuiet (receivingIn opening)),
      shown (fun t => ((t.entry 4).miss, t.txn.record, t.seg.receiver)) (exec .startDelimiterTimeout (receivingIn opening)),
      shown (fun t => ((t.entry 4).miss, t.txn.record, t.seg.receiver))
        (exec (.segmentFrameReceived ((List.replicate 67 (0 : Byte)).flatMap byteSymbols))
          (answering (.pub 4 1) (.slot 10) .cue plant))] =
      [some (1, none, .quiet), some (1, none, .drain), some (1, none, .drain)] := by decide +kernel

/-- What is being answered meets the premises of the statements on answers. -/
theorem answering_receiving {e : Expected} {o : Origin} {k : FrameKind} {s : State} (h : s.inReset = false) :
    ∃ r f, Receiving r f false (answering e o k s) ∧ r.origin = o ∧ r.kind = k ∧ r.expected = some e ∧ r.target = 4 :=
  ⟨_, _, ⟨h, rfl, rfl, rfl, rfl⟩, rfl, rfl, rfl, rfl⟩

theorem test_witness_pubAnswer :
    let s := answering (.pub 4 1) (.slot 10) .cue plant
    (∃ r f, Receiving r f false s ∧ r.origin = .slot 10 ∧ r.kind = .cue ∧ r.expected = some (.pub 4 1) ∧ r.target = 4) ∧
      s.stationActive 4 = true ∧
      s.point { address := 4, number := 1 } =
        some { newPoint { address := 4, number := 1 } 2 2 .never with watch := .change } ∧
      s.keysDistinct ∧ s.tagsDistinct ∧ s.RecordLaw :=
  ⟨answering_receiving rfl, by decide +kernel, by decide +kernel, by unfold State.keysDistinct; decide +kernel,
    by unfold State.tagsDistinct; decide +kernel, fun r h => by cases h; exact ⟨rfl, 1, rfl, rfl⟩⟩

/-- The CUE's point withdrawn meanwhile, or its station BARRED. -/
def discarding (gone : Bool) : State :=
  answering (.pub 4 1) (.slot 10) .cue (if gone then withStation 4 .active running else withStation 4 .barred plant)

/-- R32, R196: a PUB with every flag bit and both ignored bits of byte 1 set is stored like any other. -/
theorem test_pub_with_ignored_bits_is_stored :
    shown (fun t => ((t.point { address := 4, number := 1 }).map (·.value), t.attention, t.txn.record))
      (exec (.segmentFrameReceived (bodySymbols [0x3F, 0xC4, 1, 0, 7, 8])) (answering (.pub 4 1) (.slot 10) .cue plant)) =
      some (some [7, 8], [4], none) := by decide +kernel

theorem test_witness_pubDiscarded :
    (∃ r f, Receiving r f false (discarding true) ∧ r.kind = .cue ∧ r.expected = some (.pub 4 1) ∧ r.target = 4) ∧
    (∃ r f, Receiving r f false (discarding false) ∧ r.kind = .cue ∧ r.expected = some (.pub 4 1) ∧ r.target = 4) ∧
    (discarding true).point { address := 4, number := 1 } = none ∧ (discarding false).stationActive 4 = false ∧
    (discarding true).keysDistinct ∧ (discarding false).keysDistinct ∧ (discarding true).tagsDistinct ∧
    (discarding false).tagsDistinct ∧ (discarding true).RecordLaw ∧ (discarding false).RecordLaw :=
  ⟨⟨_, _, ⟨rfl, rfl, rfl, rfl, rfl⟩, rfl, rfl, rfl⟩, ⟨_, _, ⟨rfl, rfl, rfl, rfl, rfl⟩, rfl, rfl, rfl⟩, by decide +kernel,
    by decide +kernel, by unfold State.keysDistinct; decide +kernel, by unfold State.keysDistinct; decide +kernel,
    by unfold State.tagsDistinct; decide +kernel, by unfold State.tagsDistinct; decide +kernel,
    fun r h => by cases h; exact ⟨rfl, 1, rfl, rfl⟩, fun r h => by cases h; exact ⟨rfl, 1, rfl, rfl⟩⟩

/-- R79: a PUB for a BARRED station is discarded, its attention flag with it, and the record ends. -/
theorem test_pub_of_a_barred_station_is_discarded :
    shown (fun t => (t.points, t.reports, t.attention, t.txn.record))
      (exec (.segmentFrameReceived (bodySymbols [0x31, 4, 1, 0, 1, 2])) (discarding false)) =
      some ((discarding false).points, (discarding false).reports, [], none) := by decide +kernel

theorem test_witness_noteAndReply :
    (∃ r f, Receiving r f false (answering (.note 4) .fetch .fetch plant) ∧ r.origin = .fetch ∧ r.kind = .fetch ∧
      r.expected = some (.note 4) ∧ r.target = 4) ∧
    (∃ r f, Receiving r f false (answering (.reply 4 9) (.outbound 9) .send busyPlant) ∧ r.origin = .outbound 9 ∧
      r.kind = .send ∧ r.expected = some (.reply 4 9) ∧ r.target = 4) ∧
    message4 9 .normal ∈ (answering (.reply 4 9) (.outbound 9) .send busyPlant).outbound ∧
    (answering (.reply 4 9) (.outbound 9) .send busyPlant).keysDistinct ∧
    (answering (.reply 4 9) (.outbound 9) .send busyPlant).tagsDistinct :=
  ⟨answering_receiving rfl, answering_receiving rfl, by decide +kernel, by unfold State.keysDistinct; decide +kernel,
    by unfold State.tagsDistinct; decide +kernel⟩

/-- Station 4 LOST with a seen and an expected identity, station 5 ACTIVE, and station 4 answers a ROLL. -/
def rolling (expected : Option Identity) (a : Admission) : State :=
  let s := answering (.answer 4) .probe .roll (withStation 5 .active plant)
  { s with sched := { s.sched with params := { s.sched.params with admission := a } } }.setEntry 4
    { RosterEntry.vacant with state := .lost, seen := some (identity 4), expected := expected }

theorem test_witness_rollAnswer :
    (∃ r f, Receiving r f false (rolling none .closed) ∧ r.origin = .probe ∧ r.kind = .roll ∧
      r.expected = some (.answer 4) ∧ r.target = 4) ∧
    ((rolling none .closed).entry 4).state = .lost ∧
    (let other := fun (i : Identity) (s : State) => stationAddresses.find? fun b =>
      decide (b ≠ 4 ∧ ((s.entry b).state = .active ∨ (s.entry b).state = .held) ∧ (s.entry b).seen = some i)
     other (identity 5) (rolling none .closed) = some 5 ∧ other (identity 4) (rolling none .closed) = none ∧
      other (identity 9) (rolling none .closed) = none) ∧
    ((rolling none .closed).entry 4).seen = some (identity 4) ∧ identity 4 ≠ identity 9 ∧
    ((answering (.answer 4) .probe .roll plant).entry 4).state = .active ∧
    (rolling none .closed).keysDistinct ∧ (rolling none .closed).tagsDistinct :=
  ⟨⟨_, _, ⟨rfl, rfl, rfl, rfl, rfl⟩, rfl, rfl, rfl, rfl⟩, by decide +kernel, by decide +kernel, by decide +kernel,
    by decide +kernel, by decide +kernel, by unfold State.keysDistinct; decide +kernel,
    by unfold State.tagsDistinct; decide +kernel⟩

/-- The four tests on an ANSWER (R50 to R52), and the report each raises. -/
theorem test_answers_to_a_roll :
    [(5, none, .closed), (4, none, .closed), (9, some 9, .closed), (9, some 8, .opened), (9, none, .opened)].map
      (fun (x : Nat × Option Nat × Admission) =>
        shown (fun t => ((t.entry 4).state, t.reports.unsent.getLast?.map (·.kind)))
          (exec (.segmentFrameReceived (bodySymbols ([0x50, 4] ++ identityBytes (identity x.1))))
            (rolling (x.2.1.map identity) x.2.2))) =
      [some (.lost, some .duplicateIdentity), some (.active, some .deviceJoined), some (.active, some .deviceJoined),
        some (.held, some .deviceHeld), some (.active, some .deviceJoined)] := by decide +kernel

/-- A PUB of three bytes at a point of two makes it BAD_LENGTH (R81). -/
theorem test_pub_of_another_length :
    shown (fun t => t.points.map (fun p => (p.quality, p.value)))
      (exec (.segmentFrameReceived (bodySymbols [0x30, 4, 1, 0x80, 1, 2, 3])) (answering (.pub 4 1) (.slot 10) .cue plant)) =
      some [(.badLength, [0, 0])] := by decide +kernel

theorem test_witness_wrongAndGarbled :
    (∃ r f, Receiving r f false (answering (.pub 4 1) (.slot 10) .cue plant) ∧
      (answering (.pub 4 1) (.slot 10) .cue plant).keepsStation r ∧
      ∀ e, r.expected = some e → ¬ e.metBy [0x30, 4, 2, 0, 1]) ∧
    crcSound [1, 2, 3, 4] = false ∧ (List.replicate 66 (0 : Byte)).length ≤ 66 := by
  refine ⟨⟨_, _, ⟨rfl, rfl, rfl, rfl, rfl⟩, fun _ _ _ => by decide +kernel, fun e h => ?_⟩, by decide +kernel⟩
  cases h
  intro hm
  exact absurd hm.2.2.2.2 (by decide)

/-- The answer to a CUE of slot 10 is being received from station 4, which has missed twice. -/
def lastAnswer : State :=
  let s := slotMiss .receiving
  s.setSeg { s.seg with
    receiver := .body { start := 5000, echo := false, count := 18, lastHalf := false, lastTransition := 9000 } false [] [] [] }

theorem test_witness_wrongLosesStation :
    (∃ r f, Receiving r f false lastAnswer ∧ ¬ lastAnswer.keepsStation r ∧ 1 ≤ r.target ∧ r.target ≤ 62 ∧ r.kind ≠ .roll) ∧
      lastAnswer.tagsDistinct ∧ lastAnswer.keysDistinct ∧ lastAnswer.RecordLaw :=
  ⟨⟨_, _, ⟨rfl, rfl, rfl, rfl, rfl⟩, fun h => h (by decide) (by decide) (by decide +kernel) (by decide +kernel), by decide,
      by decide, by decide⟩,
    by unfold State.tagsDistinct; decide +kernel, by unfold State.keysDistinct; decide +kernel,
    fun r h => by cases h; exact ⟨rfl, 1, rfl, rfl⟩⟩

/-- A frame that breaks off inside a byte is the third miss (R58, R163). -/
theorem test_broken_answer_at_the_limit_loses_the_station :
    shown (fun t => ((t.entry 4).state, t.txn.record))
      (exec (.segmentFrameReceived (byteSymbols 0x30 ++ (byteSymbols 4).take 3 ++ [.vMinus])) lastAnswer) =
      some (.lost, none) := by decide +kernel

/-- A PUB of another point ends a CUE WRONG, and a frame of unsound check ends it GARBLED: one miss each. -/
theorem test_wrong_and_garbled_count_a_miss :
    (shown (fun t => ((t.entry 4).miss, t.txn.record)) (exec (.segmentFrameReceived (bodySymbols [0x30, 4, 2, 0, 1]))
        (answering (.pub 4 1) (.slot 10) .cue plant)),
      shown (fun t => ((t.entry 4).miss, t.txn.record)) (exec (.segmentFrameReceived
          ([0x30, 4, 1, 0].flatMap byteSymbols ++ endDelimiter)) (answering (.pub 4 1) (.slot 10) .cue plant))) =
      (some (1, none), some (1, none)) := by decide +kernel

/-- Cycle 1 of the life of one point (chapter 4): the PUB 01 F4 with status 80h. -/
theorem test_pub_of_the_life_of_one_point :
    shown (fun t => t.points.map (fun p => (p.quality, p.value, p.status, p.age, p.updates.toNat)))
      (exec (.segmentFrameReceived (bodySymbols [0x30, 4, 1, 0x80, 0x01, 0xF4]))
        (answering (.pub 4 1) (.slot 10) .cue plant)) = some [(.good, [0x01, 0xF4], 0x80, 0, 1)] := by decide +kernel

/-- Station 4 answers a ROLL, and no identity is expected there: with admission CLOSED it is HELD, reason UNKNOWN
(R52). -/
theorem test_answer_of_an_unknown_station_is_held :
    shown (fun t => ((t.entry 4).state, t.reports.unsent.getLast?.map (·.body)))
      (exec (.segmentFrameReceived (bodySymbols ([0x50, 4] ++ identityBytes (identity 9))))
        (answering (.answer 4) .probe .roll (withStation 4 .lost plant))) =
      some (.held, some ([4] ++ identityBytes (identity 9) ++ [0] ++ List.replicate 9 0)) := by decide +kernel

theorem test_witness_babbleAndForeign :
    ((listening .drain .active).seg.activity = .active ∧ (listening .drain .active).seg.babbleFault = false ∧
      (listening .drain .active).txn.record = none) ∧
    (({ plant with seg := { plant.seg with babbleFault := true } } : State).seg.babbleFault = true ∧
      plant.seg.activity = .quiet) ∧
    (∃ r, (sendingCue none (.slot 10) .cue).txn.record = some r ∧ ∃ since, r.phase = .sending since) ∧
    (∃ r, (withRecord (.slot 10) .cue (.waitingLine 5) none (listening .drain .active)).txn.record = some r ∧
      ∀ since, r.phase ≠ .sending since) ∧ (listening .drain .active).tagsDistinct ∧
    ({ stoppingPlant with
        txn := { stoppingPlant.txn with lastForeign := some 0 }
        conds := { stoppingPlant.conds with foreign := { active := true, latched := true } } } : State).conds.foreign.active =
      true ∧ stoppingPlant.sched.mode ≠ .run ∧ plant.sched.mode = .run :=
  ⟨by decide +kernel, by decide +kernel, ⟨_, rfl, _, rfl⟩, ⟨_, rfl, nofun⟩, by unfold State.tagsDistinct; decide +kernel,
    rfl, by decide, rfl⟩

/-- The plant's receiver has completed a start delimiter, and no record awaits the frame. -/
def straying : State :=
  let s := answering (.pub 4 1) (.slot 10) .cue plant
  s.setTxn { s.txn with record := none }

theorem test_witness_stray :
    straying.inReset = false ∧ (∃ f, straying.seg.receiver = .body f false [] [] [] ∧ f.echo = false) ∧
      straying.txn.record = none := ⟨rfl, ⟨_, rfl, rfl⟩, rfl⟩

/-- R30, R38: an answer that came after its deadline is stray, though ANSWER_WINDOW_EXPIRED has yet to be taken. -/
theorem test_late_answer_is_stray :
    shown (fun t => (t.txn.stray, t.txn.record.map (·.phase), (t.point { address := 4, number := 1 }).map (·.quality)))
      (exec (.segmentFrameReceived (bodySymbols [0x30, 4, 1, 0, 7, 8]))
        (withRecord (.slot 10) .cue (.awaiting 4000) (some (.pub 4 1)) straying)) =
      some (1, some (.awaiting 4000), some .never) := by decide +kernel

theorem test_witness_lateFrame :
    ∃ r, (withRecord (.slot 10) .cue (.awaiting 4000) (some (.pub 4 1)) straying).txn.record = some r ∧
      r.awaitsNone (withRecord (.slot 10) .cue (.awaiting 4000) (some (.pub 4 1)) straying).now :=
  ⟨_, rfl, .inr ⟨4000, rfl, by decide +kernel⟩⟩

/-- A stray ROLL is foreign traffic, with its report; a stray PUB is not (R38). -/
theorem test_stray_roll_is_foreign :
    (shown (fun t => (t.txn.stray, t.conds.foreign.active, t.reports.unsent.getLast?.map (·.body)))
        (exec (.segmentFrameReceived (bodySymbols [0x40, 20])) straying),
      shown (fun t => (t.txn.stray, t.conds.foreign.active))
        (exec (.segmentFrameReceived (bodySymbols [0x30, 20, 1, 0, 1])) straying)) =
      (some (1, true, some [4, 20, 1, 1, 0, 0, 0, 0]), some (1, false)) := by decide +kernel

/-! ### Chapters 5 and 8: gap work and edges -/

/-- L2 pending at tick 28 of a cycle with a slot at offset 100 (the example of chapter 5). -/
def gapExample : State :=
  withLine 2 (.input { input41 2 with pending := true })
    (withSlot (slot41 100) (withPoint 4 1 4 .never (withStation 4 .active { running with now := 28672 })))

theorem test_trigger_fits_in_72_ticks_and_starts :
    shown (fun t => t.txn.record.map (fun r => (r.origin, r.body))) (exec .gapConsideration gapExample) =
      some (some (.trigger 2, [0x20, 4, 1])) := by decide +kernel

theorem test_witness_gap_trigger :
    gapExample.inReset = false ∧ gapExample.opportunity = true ∧
      gapExample.lines.records[(2 : Fin 8)] = .input { input41 2 with pending := true } ∧
      gapExample.lines.records[(0 : Fin 8)] = .off ∧ gapExample.lines.records[(1 : Fin 8)] = .off ∧
      gapExample.stationActive 4 = true ∧
      gapExample.point { address := 4, number := 1 } =
        some { newPoint { address := 4, number := 1 } 4 2 .never with watch := .change } ∧
      gapExample.fits 3 (4 + 4) = true ∧
      (gapExample.sched.active.map (·.offset)).Pairwise (· < ·) := by decide +kernel

/-- The horizon of the example is its slot's nominal time, 72 ticks ahead. -/
theorem test_horizon_is_the_slot :
    (gapExample.horizon, gapExample.horizon - gapExample.now) = (102400, 72 * 1024) := by decide +kernel

/-- L1's trigger is bound to station 62, which is not ACTIVE, and L2's is served in the same consideration (R94, R150). -/
theorem test_absent_trigger_is_dropped_on_the_way :
    shown (fun t => (t.reports.unsent.getLast?.map (·.body), t.txn.record.map (·.origin)))
      (exec .gapConsideration (withLine 1
        (.input { input41 2 with binding := some { address := 62, number := 0 }, pending := true }) gapExample)) =
      some (some [1, 62, 0, 0], some (.trigger 2)) := by decide +kernel

theorem test_witness_gap_absent :
    let l := { input41 2 with binding := some { address := 62, number := 0 }, pending := true }
    let s := withLine 1 (.input l) gapExample
    s.opportunity = true ∧ s.lines.records[(0 : Fin 8)] = .off ∧ s.lines.records[(1 : Fin 8)] = .input l ∧
      s.stationActive 62 = false := by decide +kernel

/-- L2 is pending with 32 ticks left: its CUE does not fit, nor does anything else. -/
def narrowGap : State := withMessage (message4 9 .urgent) { gapExample with now := 69632, attention := [4] }

theorem test_nothing_fits_in_32_ticks : shown id (exec .gapConsideration narrowGap) = some narrowGap := by decide +kernel

/-- With nothing in flight and one message held, only that message is offered. -/
theorem only_offered {m x : Message} {s : State} {pre post : List Message} (h : s.outbound = [m])
    (ho : s.offers pre x post) : x = m := by
  have e := ho.1
  rw [h] at e
  match pre, e with
  | [], e => simpa using (List.cons.inj e).1.symm
  | _ :: _, e => simp at e

theorem test_witness_gap_passedOver :
    narrowGap.opportunity = true ∧ (∀ j, narrowGap.triggerPassed j) ∧ narrowGap.tagsDistinct ∧
      narrowGap.messagePassed .urgent ∧ narrowGap.messagePassed .normal ∧ narrowGap.fetchPassed ∧
      narrowGap.fits 2 10 = false := by
  have fits : ∀ x : Message, x = message4 9 .urgent → narrowGap.fits (3 + x.payload.length) 51 = false := by
    rintro _ rfl
    decide +kernel
  have held : narrowGap.outbound = [message4 9 .urgent] := by decide +kernel
  refine ⟨by decide +kernel, fun j l hl hp k hk => ?_, by unfold State.tagsDistinct; decide +kernel,
    fun pre x post h _ => fits x (only_offered held h), fun pre x post h _ => fits x (only_offered held h),
    .inr (.inr (by decide +kernel)), by decide +kernel⟩
  have two : narrowGap.lines.records[(2 : Fin 8)] = .input { input41 2 with pending := true } := by decide +kernel
  have off : ∀ i : Fin 8, i ≠ 2 → narrowGap.lines.records[i] = .off := by decide +kernel
  by_cases hj : j = 2
  · subst hj
    rw [two] at hl
    cases hl
    cases hk
    refine ⟨by decide +kernel, fun p hq => ?_⟩
    have : narrowGap.point { address := 4, number := 1 } =
        some { newPoint { address := 4, number := 1 } 4 2 .never with watch := .change } := by decide +kernel
    rw [this] at hq
    cases hq
    decide +kernel
  · rw [off j hj] at hl
    cases hl

/-- No line has a trigger, so none stands before another candidate. -/
theorem no_trigger {s : State} (h : ∀ j : Fin 8, s.lines.records[j] = .off) (j : Fin 8) : s.triggerPassed j := by
  intro l hl
  rw [h j] at hl
  cases hl

theorem test_witness_gap_urgent :
    let s := withMessage (message4 9 .urgent) plant
    s.opportunity = true ∧ (∀ j, s.triggerPassed j) ∧ s.tagsDistinct ∧ s.offers [] (message4 9 .urgent) [] ∧
      s.fits (3 + 3) 51 = true :=
  ⟨by decide +kernel, no_trigger (by decide +kernel), by unfold State.tagsDistinct; decide +kernel,
    ⟨by decide +kernel, .inr (by decide +kernel)⟩, by decide +kernel⟩

/-- A NORMAL message that is being attempted again is the only one the queue offers. -/
theorem test_witness_gap_fetch :
    let m := { message4 9 .normal with state := .inFlight, made := 1 }
    let s := withMessage m { plant with attention := [4] }
    s.opportunity = true ∧ (∀ j, s.triggerPassed j) ∧ s.tagsDistinct ∧ s.messagePassed .urgent ∧
      s.gap.alternation = .fetch ∧ s.attention = 4 :: [] ∧ s.canReserve = true ∧ s.fits 2 50 = true := by
  refine ⟨by decide +kernel, no_trigger (by decide +kernel), by unfold State.tagsDistinct; decide +kernel,
    fun pre x post h hc => ?_, by decide +kernel⟩
  rw [only_offered (m := { message4 9 .normal with state := .inFlight, made := 1 }) (by decide +kernel) h] at hc
  exact absurd hc (by decide)

theorem test_witness_gap_normal :
    let m := { message4 9 .normal with state := .inFlight, made := 1 }
    let s := withMessage m plant
    s.opportunity = true ∧ (∀ j, s.triggerPassed j) ∧ s.tagsDistinct ∧ s.messagePassed .urgent ∧ s.offers [] m [] ∧
      m.cls = .normal ∧ s.fetchPassed ∧ s.fits (3 + 3) 51 = true := by
  refine ⟨by decide +kernel, no_trigger (by decide +kernel), by unfold State.tagsDistinct; decide +kernel,
    fun pre x post h hc => ?_, ⟨by decide +kernel, .inl (by decide +kernel)⟩, by decide +kernel, .inl (by decide +kernel),
    by decide +kernel⟩
  rw [only_offered (m := { message4 9 .normal with state := .inFlight, made := 1 }) (by decide +kernel) h] at hc
  exact absurd hc (by decide)

/-- An empty queue offers no message. -/
theorem none_offered {s : State} {pre post : List Message} {m : Message} (e : s.outbound = [])
    (h : s.offers pre m post) : False := by
  have k := h.1
  rw [e] at k
  cases pre <;> cases k

theorem test_witness_gap_probe :
    plant.opportunity = true ∧ (∀ j, plant.triggerPassed j) ∧ plant.tagsDistinct ∧ plant.messagePassed .urgent ∧
      plant.messagePassed .normal ∧ plant.fetchPassed ∧ plant.probeCandidate = some 1 ∧
      plant.gap.probesStarted < plant.sched.params.probes ∧ plant.fits 2 10 = true ∧
      State.reset.opportunity = false :=
  ⟨by decide +kernel, no_trigger (by decide +kernel), by unfold State.tagsDistinct; decide +kernel,
    fun pre x post h _ => (none_offered rfl h).elim, fun pre x post h _ => (none_offered rfl h).elim,
    .inl rfl, by decide +kernel⟩

/-- R48: from 62 the search goes on at 1, and it passes the ACTIVE entry 4. -/
theorem test_witness_probeCandidate :
    let at_ := fun p => ({ plant with roster := { plant.roster with probePointer := p } } : State)
    1 ≤ plant.roster.probePointer ∧ plant.roster.probePointer ≤ 62 ∧ (at_ 4).probeCandidate = some 5 ∧
      (at_ 62).probeCandidate = some 62 ∧ (withStation 62 .held (at_ 62)).probeCandidate = some 1 ∧
      (stationAddresses.foldl (fun s a => withStation a .barred s) plant).probeCandidate = none := by decide +kernel

theorem test_probe_of_62_wraps_to_1 :
    shown (fun t => (t.roster.probePointer, t.txn.record.map (·.target)))
      (exec .gapConsideration { plant with roster := { plant.roster with probePointer := 62 } }) =
      some (1, some 62) := by decide +kernel

/-- L2 bound to (4,1) with a filter. -/
def edgePlant (filter : Nat) : State := withLine 2 (.input (input41 filter)) plant

theorem test_witness_edges :
    (edgePlant 2).inReset = false ∧ (edgePlant 2).lines.records[(2 : Fin 8)] = .input (input41 2) ∧
      (edgePlant 2).lines.pins[(2 : Fin 8)] = .low ∧ (input41 2).filter ≠ 0 ∧
      (input41 0).filter = 0 ∧ (edgePlant 0).lines.records[(2 : Fin 8)] = .input (input41 0) ∧
      (input41 2).differsSince = none := by decide +kernel

/-- A line that is no INPUT: the pin alone follows the outside. -/
theorem test_witness_otherLines :
    plant.inReset = false ∧ (∀ l, plant.lines.records[(3 : Fin 8)] ≠ .input l) ∧
      ∀ l, (withLine 3 (newHost .low .high) plant).lines.records[(3 : Fin 8)] ≠ .input l := by
  refine ⟨rfl, fun l h => ?_, fun l h => ?_⟩ <;> cases h

theorem test_overdriven_output :
    shown (fun t => (t.lines.pins[3], t.lines.records[3]))
      (exec (.localLinePinChange 3 .low) (withLine 3 (newHost .low .high) plant)) =
      some (.low, newHost .low .high) := by decide +kernel

theorem test_witness_filterExpired :
    lineExample.lines.records[(2 : Fin 8)] = .input { input41 2 with edge := .rise, differsSince := some 409600 } ∧
      lineExample.lines.pins[(2 : Fin 8)] ≠ (input41 2).filtered ∧ lineExample.inReset = false ∧
      409600 + (input41 2).filter * 1024 ≤ lineExample.now ∧ (input41 2).filter ≠ 0 := by decide +kernel

/-! ### The laws -/

theorem test_witness_sentFrame :
    2 ≤ (rollBody 20).length ∧ (rollBody 20).length ≤ 64 ∧ 2 ≤ (List.replicate 64 (0 : Byte)).length ∧
      (List.replicate 64 (0 : Byte)).length ≤ 64 := by decide +kernel

/-- A step that changes the state, from a state that keeps the laws of the report queue and the link. -/
theorem test_witness_laws :
    plant.ReportPlacesLaw ∧ plant.OutboundLaw ∧ plant.LinkLaw ∧ sendMiss.OutboundLaw ∧
      ∃ t, step { plant with pending := [.boundary] } = .next t := by
  refine ⟨?_, ?_, ?_, ?_, _, rfl⟩
  · unfold State.ReportPlacesLaw
    decide +kernel
  · unfold State.OutboundLaw
    decide +kernel
  · unfold State.LinkLaw
    decide +kernel
  · unfold State.OutboundLaw
    decide +kernel

theorem test_witness_conditionLaw : plant.ConditionLaw :=
  ⟨by intro n; cases n <;> decide +kernel, by decide +kernel, by decide +kernel, by decide +kernel⟩

theorem test_witness_qualityLaw : plant.ConfigLaw ∧ plant.QualityLaw := by
  refine ⟨⟨fun h => absurd h (by decide), fun h => absurd h (by decide)⟩, ?_⟩
  unfold State.QualityLaw
  decide +kernel

theorem test_witness_referenceLaw : slot50.ReferenceLaw := by
  refine ⟨?_, ?_, ?_, ?_, ?_⟩
  · unfold State.bankLawful
    decide +kernel
  · unfold State.bankLawful
    decide +kernel
  · intro i k h
    fin_cases i <;> rcases h with h | h <;> cases h
  · decide +kernel
  · decide +kernel

theorem test_witness_waitingLaw :
    { (slotPlant true) with sched := { (slotPlant true).sched with presented := [10] } }.WaitingLaw :=
  ⟨fun h => absurd rfl h, by decide +kernel, fun o h => by
    cases List.mem_singleton.1 h
    exact ⟨by decide +kernel, slot41 10, by decide +kernel, by decide +kernel⟩⟩

/-- The plant's roster: station 4 alone. -/
theorem plant_entry (a : Nat) :
    plant.entry a =
      if a = 4 then { RosterEntry.vacant with state := .active, seen := some (identity 4) } else .vacant := by
  have running_entry : ∀ b, running.entry b = .vacant := by
    intro b
    by_cases h : b = 0 ∨ 62 < b
    · exact entry_outside h
    · have hb : b - 1 < 62 := by omega
      have h0 : b ≠ 0 := by omega
      simp [State.entry, h0, hb, running, State.reset, Roster.reset]
  change (running.setEntry 4 { RosterEntry.vacant with state := .active, seen := some (identity 4) }).entry a = _
  rw [entry_setEntry, running_entry]
  simp

theorem test_witness_identityLaw : plant.IdentityLaw := by
  refine ⟨fun a h => ?_, fun a b hab h k => ?_, by decide +kernel, fun a h => ?_, by decide +kernel⟩
  · rw [plant_entry] at h ⊢
    by_cases ha : a = 4 <;> simp [ha, RosterEntry.vacant] at h ⊢
  · rw [plant_entry] at h k
    by_cases ha : a = 4
    · have hb : ¬ b = 4 := fun e => hab (ha.trans e.symm)
      simp [hb, RosterEntry.vacant] at k
    · simp [ha, RosterEntry.vacant] at h
  · cases h

end Sys2Proof.Tests
end

section
/-! PROOFS. Chapter 1, the shadow bank: ADD_SLOT (R9), DELETE_SLOT (R10), CLEAR_SHADOW and COPY_ACTIVE (R11). -/

namespace Sys2Proof.Machine

/-! ## The fields of a payload (R191, R194) -/

/-- R191: the two-byte field that a payload begins with. -/
@[simp] theorem field16_head (hi lo : Byte) (bs : List Byte) :
    field16 (hi :: lo :: bs) 0 = hi.toNat * 256 + lo.toNat := by simp [field16, ofBytes]

/-- R194: the slot that the six bytes of an ADD_SLOT payload name. -/
theorem slotOf_bytes (oh ol a n d ph : Byte) :
    slotOf [oh, ol, a, n, d, ph] =
      { offset := oh.toNat * 256 + ol.toNat, address := a.toNat, number := n.toNat, divisor := d.toNat
        phase := ph.toNat } := by
  simp [slotOf, field8]

/-! ## Looking into a bank (R8, R9) -/

/-- R9: the range check of the operations, field by field. -/
theorem slotInRange_iff (period : Nat) (x : Slot) :
    slotInRange period x = true ↔ 0 < x.offset ∧ x.offset < period ∧ 1 ≤ x.address ∧ x.address ≤ 62 ∧
      x.number ≤ 15 ∧ x.divisor ∈ [1, 2, 4, 8, 16, 32] ∧ x.phase < x.divisor := by
  simp only [slotInRange, stationAddress, divisorAllowed, Config.stationCount, Bool.and_eq_true, decide_eq_true_eq,
    List.contains_iff_mem, and_assoc]

/-- A bank shows no slot at an offset exactly when all its slots stand elsewhere. -/
theorem slotAt_eq_none_iff {bank : List Slot} {o : Nat} : slotAt bank o = none ↔ ∀ y ∈ bank, y.offset ≠ o := by
  simp [slotAt, List.find?_eq_none]

/-- A bank shows a slot at an offset exactly when one of its slots stands there. -/
theorem slotAt_isSome_iff {bank : List Slot} {o : Nat} : (slotAt bank o).isSome = true ↔ ∃ y ∈ bank, y.offset = o := by
  simp [slotAt, List.find?_isSome]

/-! ## What each of the four commands hands to the taking of a request -/

theorem exec_addSlot (num : Word16) (p : List Byte) (s : State) :
    exec (.addSlot num p) s = .next (takeRequest .addSlot num p (ownAddSlot p) s) := rfl

theorem exec_deleteSlot (num : Word16) (p : List Byte) (s : State) :
    exec (.deleteSlot num p) s = .next (takeRequest .deleteSlot num p (ownDeleteSlot p) s) := rfl

theorem exec_clearShadow (num : Word16) (p : List Byte) (s : State) :
    exec (.clearShadow num p) s = .next (takeRequest .clearShadow num p (replaceShadow fun _ => []) s) := rfl

theorem exec_copyActive (num : Word16) (p : List Byte) (s : State) :
    exec (.copyActive num p) s = .next (takeRequest .copyActive num p (replaceShadow fun t => t.sched.active) s) := rfl

/-- R11: a request that replaces the shadow bank is answered BUSY while a swap is pending, and otherwise does so. -/
theorem takeRequest_replaceShadow {r : RequestName} {num : Word16} {p : List Byte} {s : State} (bank : State → List Slot)
    (h : TakenFresh (requestFrame r num p) s) (hl : lengthAllowed r p.length = true)
    (hm : modeRefusal r s.sched.mode = none) :
    takeRequest r num p (replaceShadow bank) s =
      if s.sched.swapPending then s.onlyAnswered r num (.plain .busy)
      else State.answered { s.taken with sched := { s.sched with shadow := bank s.taken } } r num okReply := by
  rw [takeRequest_owner h hl hm]
  by_cases busy : s.sched.swapPending = true
  · simp [replaceShadow, busy, refuse, State.onlyAnswered]
  · simp [replaceShadow, busy, accept, okReply, Reply.plain, State.setSched]

/-! ## The statements -/

/-- Settles O16: both checks of R10 are those of the operation, and then the slot at the offset goes. -/
theorem deleteSlotRemovesSlot : Obligations.DeleteSlotRemovesSlot := by
  intro num hi lo s h
  rw [exec_deleteSlot, takeRequest_owner h rfl rfl]
  simp only [ownDeleteSlot, field16_head, Option.isNone_iff_eq_none, slotAt_eq_none_iff, State.taken_sched]
  refine congrArg _ ?_
  split_ifs with busy absent
  · rfl
  · rfl
  · rfl

/-- Settles O17: both requests replace the shadow bank, with nothing and with the active bank. -/
theorem shadowIsClearedOrCopied : Obligations.ShadowIsClearedOrCopied := by
  intro num s
  constructor
  · intro h
    rw [exec_clearShadow, takeRequest_replaceShadow _ h rfl rfl]
  · intro h
    rw [exec_copyActive, takeRequest_replaceShadow _ h rfl rfl, State.taken_sched]

/-- Settles O15: the checks of the operation are R9's, one by one in their order, and the insertion puts the slot behind
every slot whose offset is not above its own. -/
theorem addSlotChecksThenJoins : Obligations.AddSlotChecksThenJoins := by
  intro num oh ol a n d ph s h x
  rw [exec_addSlot, takeRequest_owner h rfl rfl]
  simp only [ownAddSlot, slotOf_bytes, Bool.not_eq_true', ← Bool.not_eq_true, slotInRange_iff, Slot.key,
    Option.isNone_iff_eq_none, slotAt_isSome_iff, insertSlot_eq, State.taken_sched, State.taken_point]
  refine congrArg _ ?_
  split_ifs with busy outOfRange undeclared occupied full
  · rfl
  · rfl
  · rfl
  · rfl
  · rfl
  · rfl

end Sys2Proof.Machine
end

section
/-! PROOFS. What each shared operation may touch: one lemma for each operation, and from them one for every command. -/

-- One theorem after another: theorems checked side by side would each hold a thread.
set_option Elab.async false

namespace Sys2Proof.Machine

/-! ## Touching pieces of the state -/

/-- The pieces of the state that a frame statement tells apart; the clock and the queue of commands are apart from all. -/
inductive Piece where
  | inReset | mode | cycle | active | shadow | params | waiting | presented | counts
  | record | traffic | entries | pointer | points | gap | outbound | attention | reports | conds | lines
  | transmitter | babble | wire | link

/-- A piece is the same in two states. -/
def Piece.same : Piece → State → State → Prop
  | .inReset, s, t => t.inReset = s.inReset
  | .mode, s, t => t.sched.mode = s.sched.mode
  | .cycle, s, t => t.sched.cycle = s.sched.cycle ∧ t.sched.cycleStart = s.sched.cycleStart
  | .active, s, t => t.sched.active = s.sched.active
  | .shadow, s, t => t.sched.shadow = s.sched.shadow
  | .params, s, t => t.sched.params = s.sched.params
  | .waiting, s, t => t.sched.waiting = s.sched.waiting
  | .presented, s, t => t.sched.presented = s.sched.presented
  | .counts, s, t =>
    t.sched.swapPending = s.sched.swapPending ∧ t.sched.summary = s.sched.summary ∧
      t.sched.skipTotal = s.sched.skipTotal ∧ t.sched.absentTally = s.sched.absentTally ∧
      t.sched.markWaiting = s.sched.markWaiting ∧ t.sched.configSince = s.sched.configSince
  | .record, s, t => t.txn.record = s.txn.record
  | .traffic, s, t =>
    t.txn.stray = s.txn.stray ∧ t.txn.seenThisCycle = s.txn.seenThisCycle ∧ t.txn.lastForeign = s.txn.lastForeign
  | .entries, s, t => t.roster.entries = s.roster.entries
  | .pointer, s, t => t.roster.probePointer = s.roster.probePointer
  | .points, s, t => t.points = s.points
  | .gap, s, t => t.gap = s.gap
  | .outbound, s, t => t.outbound = s.outbound
  | .attention, s, t => t.attention = s.attention
  | .reports, s, t => t.reports = s.reports
  | .conds, s, t => t.conds = s.conds
  | .lines, s, t => t.lines = s.lines
  | .transmitter, s, t => t.seg.transmitter = s.seg.transmitter
  | .babble, s, t => t.seg.babbleFault = s.seg.babbleFault
  | .wire, s, t =>
    t.seg.activity = s.seg.activity ∧ t.seg.lastTransition = s.seg.lastTransition ∧
      t.seg.lastEndDelimiter = s.seg.lastEndDelimiter ∧ t.seg.activeSince = s.seg.activeSince ∧
      t.seg.receiver = s.seg.receiver ∧ t.seg.echo = s.seg.echo ∧ t.seg.lastEcho = s.seg.lastEcho
  | .link, s, t => t.link = s.link

theorem Piece.same_refl (p : Piece) (s : State) : p.same s s := by
  cases p <;> simp [Piece.same]

theorem Piece.same_trans {p : Piece} {s t u : State} (h : p.same s t) (k : p.same t u) : p.same s u := by
  cases p <;> simp_all [Piece.same]

/-- From one state to the other at most the pieces of a list have changed; the clock has not turned back and the queue of
commands is the same. -/
structure Touches (ps : List Piece) (s t : State) : Prop where
  later : s.now ≤ t.now
  pending : t.pending = s.pending
  same : ∀ p, p ∉ ps → p.same s t

theorem Touches.refl (ps : List Piece) (s : State) : Touches ps s s := ⟨le_rfl, rfl, fun p _ => p.same_refl s⟩

theorem Touches.trans {ps : List Piece} {s t u : State} (h : Touches ps s t) (k : Touches ps t u) : Touches ps s u :=
  ⟨h.later.trans k.later, k.pending.trans h.pending, fun p hp => Piece.same_trans (h.same p hp) (k.same p hp)⟩

theorem Touches.mono {ps qs : List Piece} {s t : State} (h : Touches ps s t) (hs : ps ⊆ qs := by simp) : Touches qs s t :=
  ⟨h.later, h.pending, fun p hp => h.same p fun hq => hp (hs hq)⟩

/-- A choice touches what either way may touch. -/
theorem Touches.ite {ps : List Piece} {c : Prop} [Decidable c] {s t u : State} (h : Touches ps s t) (k : Touches ps s u) :
    Touches ps s (if c then t else u) := by
  split
  · exact h
  · exact k

/-- One action for each item touches what each action may touch. -/
theorem overAll_touches {α : Type} {ps : List Piece} {xs : List α} {f : α → State → State} {s : State}
    (h : ∀ x t, Touches ps t (f x t)) : Touches ps s (overAll xs f s) :=
  overAll_keeps (.refl ps s) fun x _ _ ht => ht.trans (h x _)

/-! ## The updates of the state -/

variable (s : State)

theorem setReports_touches (x : ReportQueue) : Touches [.reports] s (s.setReports x) :=
  ⟨le_rfl, rfl, fun p hp => by cases p <;> simp_all [Piece.same]⟩

theorem setConds_touches (x : ConditionSet) : Touches [.conds] s (s.setConds x) :=
  ⟨le_rfl, rfl, fun p hp => by cases p <;> simp_all [Piece.same]⟩

theorem setLines_touches (x : LocalLines) : Touches [.lines] s (s.setLines x) :=
  ⟨le_rfl, rfl, fun p hp => by cases p <;> simp_all [Piece.same]⟩

theorem setPoints_touches (x : List Point) : Touches [.points] s (s.setPoints x) :=
  ⟨le_rfl, rfl, fun p hp => by cases p <;> simp_all [Piece.same]⟩

theorem setOutbound_touches (x : List Message) : Touches [.outbound] s (s.setOutbound x) :=
  ⟨le_rfl, rfl, fun p hp => by cases p <;> simp_all [Piece.same]⟩

theorem setAttention_touches (x : List Nat) : Touches [.attention] s (s.setAttention x) :=
  ⟨le_rfl, rfl, fun p hp => by cases p <;> simp_all [Piece.same]⟩

theorem setGap_touches (x : GapArbiter) : Touches [.gap] s (s.setGap x) :=
  ⟨le_rfl, rfl, fun p hp => by cases p <;> simp_all [Piece.same]⟩

theorem setLink_touches (x : HostLink) : Touches [.link] s (s.setLink x) :=
  ⟨le_rfl, rfl, fun p hp => by cases p <;> simp_all [Piece.same]⟩

theorem setRecord_touches (r : Option Record) : Touches [.record] s (s.setTxn { s.txn with record := r }) :=
  ⟨le_rfl, rfl, fun p hp => by cases p <;> simp_all [Piece.same]⟩

theorem setTraffic_touches (x : Word32) (b : Bool) (l : Option Nat) :
    Touches [.traffic] s (s.setTxn { record := s.txn.record, stray := x, seenThisCycle := b, lastForeign := l }) :=
  ⟨le_rfl, rfl, fun p hp => by cases p <;> simp_all [Piece.same]⟩

theorem setSeg_touches (x : SegmentLine) : Touches [.transmitter, .babble, .wire] s (s.setSeg x) :=
  ⟨le_rfl, rfl, fun p hp => by cases p <;> simp_all [Piece.same]⟩

/-- An update of the segment line that leaves the transmitter and the babble fault. -/
theorem setWire_touches (x : SegmentLine) (ht : x.transmitter = s.seg.transmitter)
    (hb : x.babbleFault = s.seg.babbleFault) : Touches [.wire] s (s.setSeg x) :=
  ⟨le_rfl, rfl, fun p hp => by cases p <;> simp_all [Piece.same]⟩

theorem reach_touches (n : Nat) : Touches [] s (s.reach n) :=
  ⟨Nat.le_max_left _ _, rfl, fun p _ => by cases p <;> simp [Piece.same, State.reach]⟩


/-! ## Conditions and reports (R123-R127, R138) -/

theorem activate_touches (n : ConditionName) : Touches [.conds] s (activate n s) := by
  rw [activate_eq]
  exact setConds_touches s _

theorem deactivate_touches (n : ConditionName) : Touches [.conds] s (deactivate n s) := setConds_touches s _

theorem latchCycleLate_touches : Touches [.conds] s (latchCycleLate s) :=
  (activate_touches s _).trans (deactivate_touches _ _)

theorem clearLatch_touches (n : ConditionName) : Touches [.conds] s (clearLatch n s) :=
  .ite (.refl _ s) (setConds_touches s _)

/-- R125: raising a report touches the queue and REPORT_LOSS. -/
theorem raiseReport_touches (k : ReportKind) (body : List Byte) : Touches [.reports, .conds] s (raiseReport k body s) := by
  obtain ⟨us, n, c, h⟩ := raiseReport_frame k body s
  rw [h]
  exact Touches.trans (t := s.setReports { s.reports with unsent := us, lossTally := n })
    (setReports_touches s _).mono (setConds_touches _ _).mono

theorem takeReservation_touches : Touches [.reports] s (takeReservation s) := setReports_touches s _

theorem fillReservation_touches (k : ReportKind) (body : List Byte) : Touches [.reports] s (fillReservation k body s) :=
  setReports_touches s _

theorem overflowIfDue_touches : Touches [.reports, .conds] s (overflowIfDue s) := by
  unfold overflowIfDue
  exact .ite (.refl _ s) (.ite ((setReports_touches s _).mono.trans (deactivate_touches _ _).mono) (.refl _ s))

theorem releaseReservation_touches : Touches [.reports, .conds] s (releaseReservation s) :=
  (setReports_touches s _).mono.trans (overflowIfDue_touches _)

/-! ## Skips, entries and lines -/

theorem recordSkip_touches (o : Nat) (r : SkipReason) : Touches [.counts] s (recordSkip o r s) :=
  ⟨le_rfl, rfl, fun p hp => by cases p <;> simp_all [Piece.same, recordSkip]⟩

theorem countAbsent_touches : Touches [.counts] s (countAbsent s) :=
  ⟨le_rfl, rfl, fun p hp => by cases p <;> simp_all [Piece.same, countAbsent]⟩

theorem setEntry_touches (a : Nat) (e : RosterEntry) : Touches [.entries] s (s.setEntry a e) :=
  .ite (.refl _ s) ⟨le_rfl, rfl, fun p hp => by cases p <;> simp_all [Piece.same]⟩

theorem putLine_touches (i : Fin 8) (r : LineRecord) : Touches [.lines] s (putLine i r s) := setLines_touches s _

theorem changeInput_touches (i : Fin 8) (f : InputLine → InputLine) : Touches [.lines] s (changeInput i f s) := by
  unfold changeInput
  split
  · exact putLine_touches s i _
  · exact .refl _ s

theorem notifyMirrors_touches (k : Key) (q : Quality) (v : List Byte) : Touches [.lines] s (notifyMirrors k q v s) := by
  refine overAll_touches fun i t => ?_
  split
  · exact .ite (putLine_touches t i _) (.refl _ t)
  · exact .refl _ t

/-! ## Points, messages and foreign traffic -/

/-- R83-R86: a happening at a point touches the cache, the reports and the mirrored lines. -/
theorem changePoint_touches (f : Point → Point) (p : Point) :
    Touches [.points, .reports, .conds, .lines] s (changePoint f p s) := by
  have raised := (setPoints_touches s (replacePoint s.points (f p))).mono (qs := [.points, .reports, .conds, .lines])
  have told := raised.trans <| Touches.ite (c := watched p (f p) = true)
    (raiseReport_touches _ .pointChanged (pointChangedBody (f p))).mono (.refl _ _)
  exact .ite told (told.trans (notifyMirrors_touches _ _ _ _).mono)

theorem changePoints_touches (f : Point → Point) (ps : List Point) :
    Touches [.points, .reports, .conds, .lines] s (changePoints f ps s) :=
  overAll_touches fun p t => changePoint_touches t f p

theorem publisherActive_touches (a : Nat) : Touches [.points, .reports, .conds, .lines] s (publisherActive a s) :=
  .ite (changePoints_touches s _ _) (.refl _ s)

theorem publisherGone_touches (a : Nat) : Touches [.points, .reports, .conds, .lines] s (publisherGone a s) :=
  .ite (changePoints_touches s _ _) (.refl _ s)

theorem changeMessage_touches (t : Byte) (f : Message → Message) : Touches [.outbound] s (changeMessage t f s) :=
  setOutbound_touches s _

theorem settleMessage_touches (m : Message) (o : MessageOutcome) (extra : List Byte) :
    Touches [.reports, .outbound] s (settleMessage m o extra s) :=
  (fillReservation_touches s _ _).mono.trans (setOutbound_touches _ _).mono

theorem sightForeign_touches (k : FrameKind) (a : Nat) : Touches [.traffic, .reports, .conds] s (sightForeign k a s) := by
  unfold sightForeign
  refine (Touches.ite (.refl _ s) ?_).trans (setTraffic_touches _ _ _ _).mono
  exact (activate_touches s _).mono.trans (raiseReport_touches _ _ _).mono

theorem evaluateForeign_touches : Touches [.conds] s (evaluateForeign s) := by
  unfold evaluateForeign
  split
  · exact .ite (deactivate_touches s _) (.refl _ s)
  · exact .refl _ s

/-! ## Losing a station (R58, R59, R61) -/

theorem skipWaitingSlots_touches (a : Nat) : Touches [.waiting, .counts] s (skipWaitingSlots a s) := by
  unfold skipWaitingSlots
  refine (overAll_touches fun _ t => (countAbsent_touches t).mono).trans
    ⟨le_rfl, rfl, fun p hp => by cases p <;> simp_all [Piece.same]⟩

theorem removeAttention_touches (a : Nat) : Touches [.attention] s (removeAttention a s) := setAttention_touches s _

theorem loseMessage_touches (m : Message) : Touches [.reports, .outbound] s (loseMessage m s) :=
  .ite (changeMessage_touches s _ _).mono (settleMessage_touches s _ _ _)

theorem loseMessages_touches (a : Nat) : Touches [.reports, .outbound] s (loseMessages a s) :=
  overAll_touches fun m t => loseMessage_touches t m

theorem dropTrigger_touches (i : Fin 8) (k : Key) (r : DropReason) :
    Touches [.lines, .reports, .conds] s (dropTrigger i k r s) :=
  (changeInput_touches s _ _).mono.trans (raiseReport_touches _ _ _).mono

theorem dropLostTriggers_touches (a : Nat) : Touches [.lines, .reports, .conds] s (dropLostTriggers a s) := by
  refine overAll_touches fun i t => ?_
  split
  · split
    · exact .ite (dropTrigger_touches t _ _ _) (.refl _ t)
    · exact .refl _ t
  · exact .refl _ t

/-- The pieces that the loss of a station may touch, its entry apart. -/
def lossPieces : List Piece := [.waiting, .counts, .attention, .reports, .outbound, .points, .conds, .lines]

theorem lossConsequences_touches (a : Nat) : Touches lossPieces s (lossConsequences a s) :=
  ((((skipWaitingSlots_touches s a).mono (by simp [lossPieces])).trans
    ((removeAttention_touches _ a).mono (by simp [lossPieces]))).trans
    ((loseMessages_touches _ a).mono (by simp [lossPieces]))).trans
    (((publisherGone_touches _ a).mono (by simp [lossPieces])).trans
      ((dropLostTriggers_touches _ a).mono (by simp [lossPieces])))

/-- The pieces that the end of a record may touch, the record apart. -/
def outcomePieces : List Piece := .entries :: lossPieces

theorem loseStation_touches (a : Nat) (x : RosterState) (c : LostCause) :
    Touches outcomePieces s (loseStation a x c s) :=
  (((setEntry_touches s a _).mono (by simp [outcomePieces])).trans
    ((raiseReport_touches _ _ _).mono (by simp [outcomePieces, lossPieces]))).trans
    ((lossConsequences_touches _ a).mono (by simp [outcomePieces]))

/-! ## The end of a record (R35) -/

theorem takePolarity_touches (a : Nat) (b : Bool) : Touches [.entries, .reports, .conds] s (takePolarity a b s) :=
  .ite (.refl _ s) ((setEntry_touches s a _).mono.trans (raiseReport_touches _ _ _).mono)

theorem becomeActive_touches (a : Nat) (i : Identity) (b c : Bool) :
    Touches [.entries, .points, .reports, .conds, .lines] s (becomeActive a i b c s) :=
  ((setEntry_touches s a _).mono.trans (publisherActive_touches _ a).mono).trans (raiseReport_touches _ _ _).mono

theorem becomeHeld_touches (a : Nat) (i : Identity) (r : HeldReason) :
    Touches [.entries, .reports, .conds] s (becomeHeld a i r s) :=
  (setEntry_touches s a _).mono.trans (raiseReport_touches _ _ _).mono

theorem takeIdentity_touches (a : Nat) (i : Identity) :
    Touches [.entries, .points, .reports, .conds, .lines] s (takeIdentity a i s) := by
  unfold takeIdentity
  split
  · exact (raiseReport_touches s _ _).mono
  · refine .ite (becomeActive_touches s _ _ _ _) ?_
    split
    · exact .ite (becomeActive_touches s _ _ _ _) (becomeHeld_touches s _ _ _).mono
    · split
      · exact becomeActive_touches s _ _ _ _
      · exact (becomeHeld_touches s _ _ _).mono

theorem countClash_touches (a : Nat) : Touches [.entries, .reports, .conds] s (countClash a s) :=
  .ite ((setEntry_touches s a _).mono.trans (raiseReport_touches _ _ _).mono) (setEntry_touches s a _).mono

theorem countMiss_touches (a : Nat) : Touches outcomePieces s (countMiss a s) := by
  have counted := (setEntry_touches s a { s.entry a with miss := (s.entry a).miss + 1 }).mono
    (qs := outcomePieces) (by simp [outcomePieces])
  exact .ite (counted.trans (loseStation_touches _ _ _ _)) counted

theorem rollOutcome_touches (a : Nat) (o : TxnOutcome) :
    Touches [.entries, .points, .reports, .conds, .lines] s (rollOutcome a o s) := by
  unfold rollOutcome
  split
  · split
    · exact (takeIdentity_touches s _ _).trans (takePolarity_touches _ _ _).mono
    · exact (countClash_touches s a).mono
    · exact .refl _ s
  · split
    · exact (takePolarity_touches s _ _).mono
    · exact .refl _ s

theorem workOutcome_touches (a : Nat) (o : TxnOutcome) : Touches outcomePieces s (workOutcome a o s) := by
  cases o with
  | answered x y z =>
    exact (Touches.ite ((setEntry_touches s a _).mono (by simp [outcomePieces])) (.refl _ s)).trans
      ((takePolarity_touches _ _ _).mono (by simp [outcomePieces, lossPieces]))
  | miss => exact .ite (countMiss_touches s a) (.refl _ s)
  | garbled => exact .ite (countMiss_touches s a) (.refl _ s)
  | wrong => exact .ite (countMiss_touches s a) (.refl _ s)
  | sent => exact .refl _ s
  | collision => exact .refl _ s
  | echoLost => exact .refl _ s
  | abandoned => exact .refl _ s

theorem rosterStep_touches (r : Record) (o : TxnOutcome) : Touches outcomePieces s (rosterStep r o s) := by
  unfold rosterStep
  split
  · exact .refl _ s
  · exact (rollOutcome_touches s _ o).mono (by simp [outcomePieces, lossPieces])
  · exact workOutcome_touches s _ o

theorem takePub_touches (a n : Nat) (st : Byte) (v : List Byte) :
    Touches [.points, .reports, .conds, .lines] s (takePub a n st v s) := by
  unfold takePub
  split
  · exact .refl _ s
  · exact .ite (.refl _ s) (.ite (changePoint_touches s _ _) (.ite (changePoint_touches s _ _) (.refl _ s)))

theorem cacheStep_touches (r : Record) (o : TxnOutcome) :
    Touches [.points, .reports, .conds, .lines] s (cacheStep r o s) := by
  unfold cacheStep
  split
  · exact takePub_touches s _ _ _ _
  · exact .refl _ s

theorem attentionStep_touches (r : Record) (o : TxnOutcome) : Touches [.attention] s (attentionStep r o s) := by
  unfold attentionStep
  split
  · exact .ite (setAttention_touches s _) (.refl _ s)
  · exact .refl _ s

theorem slotOutcome_touches (n : Nat) (o : TxnOutcome) : Touches [.counts] s (slotOutcome n o s) := by
  unfold slotOutcome
  split
  · exact recordSkip_touches s _ _
  · exact recordSkip_touches s _ _
  · exact recordSkip_touches s _ _
  · exact .refl _ s

theorem attemptFailed_touches (m : Message) (b : Bool) : Touches [.reports, .outbound] s (attemptFailed m b s) := by
  unfold attemptFailed
  exact .ite (settleMessage_touches s _ _ _) (.ite (settleMessage_touches s _ _ _)
    (.ite (settleMessage_touches s _ _ _) (changeMessage_touches s _ _).mono))

theorem outboundOutcome_touches (t : Byte) (o : TxnOutcome) :
    Touches [.reports, .outbound] s (outboundOutcome t o s) := by
  unfold outboundOutcome
  split
  · exact .refl _ s
  · split
    · exact settleMessage_touches s _ _ _
    · exact attemptFailed_touches s _ _
    · exact attemptFailed_touches s _ _
    · exact attemptFailed_touches s _ _
    · exact attemptFailed_touches s _ _
    · exact attemptFailed_touches s _ _
    · exact attemptFailed_touches s _ _
    · exact .refl _ s

theorem fetchOutcome_touches (a : Nat) (o : TxnOutcome) : Touches [.reports, .conds] s (fetchOutcome a o s) := by
  unfold fetchOutcome
  split
  · exact (fillReservation_touches s _ _).mono
  · exact releaseReservation_touches s

theorem triggerOutcome_touches (i : Fin 8) (b : Bool) : Touches [.lines] s (triggerOutcome i b s) :=
  .ite (changeInput_touches s _ _) (.refl _ s)

theorem ownerStep_touches (r : Record) (o : TxnOutcome) (b : Bool) :
    Touches [.counts, .reports, .outbound, .conds, .lines] s (ownerStep r o b s) := by
  unfold ownerStep
  split
  · exact .refl _ s
  · exact (slotOutcome_touches s _ _).mono
  · exact (triggerOutcome_touches s _ _).mono
  · exact (outboundOutcome_touches s _ _).mono
  · exact (fetchOutcome_touches s _ _).mono
  · exact .refl _ s

theorem clearOnLine_touches (r : Record) : Touches [.outbound, .lines] s (clearOnLine r s) := by
  unfold clearOnLine
  split
  · exact (changeMessage_touches s _ _).mono
  · exact (changeInput_touches s _ _).mono
  · exact .refl _ s

/-- R35: what the four recipients of an outcome do. -/
theorem delivery_touches (r : Record) (o : TxnOutcome) (b : Bool) :
    Touches outcomePieces s (ownerStep r o b (attentionStep r o (cacheStep r o (rosterStep r o s)))) :=
  (((rosterStep_touches s r o).trans ((cacheStep_touches _ r o).mono (by simp [outcomePieces, lossPieces]))).trans
    ((attentionStep_touches _ r o).mono (by simp [outcomePieces, lossPieces]))).trans
    ((ownerStep_touches _ r o b).mono (by simp [outcomePieces, lossPieces]))

/-- R35: the end of a record. -/
theorem endRecord_touches (o : TxnOutcome) : Touches (.record :: outcomePieces) s (endRecord o s) := by
  unfold endRecord
  split
  · exact .refl _ s
  · rename_i r hr
    exact (((setRecord_touches s _).mono.trans ((clearOnLine_touches _ r).mono (by simp [outcomePieces, lossPieces]))).trans
      ((delivery_touches _ r o _).mono (by simp))).trans (setRecord_touches _ _).mono

theorem noteForeign_touches (body : List Byte) : Touches [.traffic, .reports, .conds] s (noteForeign body s) := by
  unfold noteForeign
  split
  · exact .ite (sightForeign_touches s _ _) (.refl _ s)
  · exact .refl _ s

theorem strayFrame_touches (v : Verdict) : Touches [.traffic, .reports, .conds] s (strayFrame v s) := by
  have counted := (setTraffic_touches s (s.txn.stray + 1) s.txn.seenThisCycle s.txn.lastForeign).mono
    (qs := [.traffic, .reports, .conds])
  unfold strayFrame
  split
  · exact counted.trans (noteForeign_touches _ _)
  · exact counted

/-- The pieces that a verdict on a received frame may touch. -/
def verdictPieces : List Piece := .traffic :: .record :: outcomePieces

/-- R31, R38: the transmission unit takes a verdict. -/
theorem receivedVerdict_touches (v : Verdict) : Touches verdictPieces s (receivedVerdict v s) := by
  have stray := (strayFrame_touches s v).mono (qs := verdictPieces) (by simp [verdictPieces, outcomePieces, lossPieces])
  unfold receivedVerdict
  split
  · exact stray
  · split
    · split
      · exact ((noteForeign_touches s _).mono (by simp [verdictPieces, outcomePieces, lossPieces])).trans
          ((endRecord_touches _ _).mono (by simp [verdictPieces]))
      · exact (endRecord_touches s _).mono (by simp [verdictPieces])
    · exact .ite stray (.refl _ s)
    · exact stray

end Sys2Proof.Machine
end

section
/-! PROOFS. Every command in one of two forms: a request of section 10.7, which goes to its owner, or a happening; and what
each command may touch. -/

-- One theorem after another: theorems checked side by side would each hold a thread.
set_option Elab.async false

namespace Sys2Proof.Machine

/-! ## Requests and their owners (R179 step 5) -/

/-- What a request's owner does in step 5 of R179. -/
def ownerOf (r : RequestName) (p : List Byte) : State → State × Reply :=
  match r with
  | .configure => ownConfigure p
  | .readConfig => fun t => (t, .okWith (paramBytes t.sched.params))
  | .start => fun t => accept (startCycle t)
  | .stop => fun t => accept (stopCycle t)
  | .addSlot => ownAddSlot p
  | .deleteSlot => ownDeleteSlot p
  | .clearShadow => replaceShadow fun _ => []
  | .copyActive => replaceShadow fun t => t.sched.active
  | .readSlots => ownReadSlots p
  | .swap => ownSwap
  | .cancelSwap => ownCancelSwap
  | .admitStation => forAddress p admitEntry
  | .bar => forAddress p fun a t => accept (barEntry a t)
  | .unbar => forAddress p unbarEntry
  | .provision => forAddress p fun a t => accept (setExpected a (some (identityOf (p.drop 1))) t)
  | .forget => forAddress p fun a t => accept (setExpected a none t)
  | .readDevice => forAddress p fun a t => (t, .okWith (entryBytes (t.entry a)))
  | .listDevices => ownListDevices p
  | .declare => ownDeclare p
  | .withdraw => ownWithdraw p
  | .readPoint => ownReadPoint p
  | .watch => ownWatch p
  | .send => ownSend p
  | .cancel => ownCancel p
  | .listMessages => fun t => (t, .okWith (byteOf t.outbound.length :: (offeringOrder t.outbound).flatMap messageItem))
  | .ackReports => ownAckReports p
  | .resendReports => ownResendReports
  | .setLevel => ownSetLevel p
  | .readConditions => fun t => (t, .okWith (conditionBytes t))
  | .clearConditions => ownClearConditions p
  | .setLine => ownSetLine p
  | .writeLine => ownWriteLine p
  | .readLines => fun t => (t, .okWith (allLines.flatMap (lineBytes t)))
  | .identify => fun t => (t, .okWith identifyBytes)
  | .status => fun t => (t, .okWith (statusBytes t))
  | .setLinkRate => ownSetLinkRate p
  | .restart => fun t => accept (t.setLink { t.link with restartDue := true })

/-- The command of a request takes it and hands it to its owner. -/
theorem exec_request (r : RequestName) (num : Word16) (p : List Byte) (s : State) :
    exec (requestCommand r num p) s = .next (takeRequest r num p (ownerOf r p) s) := by
  cases r <;> rfl

/-! ## What the taking of a request may touch (R179-R184) -/

variable {s t : State}

theorem beginSending_touches (f : LinkFrame) (s : State) : Touches [.link] s (beginSending f s) := setLink_touches s _

theorem transmit_touches (f : LinkFrame) (s : State) : Touches [.link] s (transmit f s) := by
  unfold transmit
  split
  · exact beginSending_touches f s
  · exact setLink_touches s _

theorem validFrame_touches (s : State) : Touches [.link, .conds] s (validFrame s) :=
  (setLink_touches s { s.link with silenceStart := s.now }).mono.trans (deactivate_touches _ _).mono

/-- R179: a request that is taken leaves the buffer, or comes to an empty one and is judged valid. -/
theorem admitFrame_cases {f : RequestFrame} (h : admitFrame f s = some t) :
    t = validFrame s ∨ ∃ rest, s.link.buffer = f :: rest ∧ t = s.setLink { s.link with buffer := rest } := by
  unfold admitFrame at h
  split at h
  · cases h
  · split at h
    · exact .inl (Option.some.inj h).symm
    · split at h
      · rename_i g rest hb hg
        exact .inr ⟨rest, hg ▸ hb, (Option.some.inj h).symm⟩
      · cases h

theorem admitFrame_touches {f : RequestFrame} (h : admitFrame f s = some t) : Touches [.link, .conds] s t := by
  rcases admitFrame_cases h with rfl | ⟨rest, -, rfl⟩
  · exact validFrame_touches s
  · exact (setLink_touches s _).mono

/-- R179, R180: a request is not taken, is answered as a repeat, or is performed and answered. -/
theorem takeFrame_cases (f : RequestFrame) (act : State → State × Reply) (s : State) :
    takeFrame f act s = s ∨ ∃ t, s.inReset = false ∧ admitFrame f s = some t ∧
      ((∃ r, t.link.lastRequest = some r ∧ takeFrame f act s = transmit r.response t) ∨
        takeFrame f act s = respond f.code f.num (act t).2 (act t).1) := by
  unfold takeFrame
  cases hr : s.inReset with
  | true => exact .inl (unlessInReset_held hr)
  | false =>
    rw [unlessInReset_running hr]
    cases ha : admitFrame f s with
    | none => exact .inl rfl
    | some t =>
      refine .inr ⟨t, rfl, rfl, ?_⟩
      cases hl : t.link.lastRequest with
      | none => exact .inr (by simp [hl, performRequest])
      | some r =>
        cases hrep : r.repeats f.code f.num with
        | true => exact .inl ⟨r, rfl, by simp [hl, hrep]⟩
        | false => exact .inr (by simp [hl, hrep, performRequest])

/-- R179: what the steps 3 to 5 of a request leave is what it found or what its owner leaves. -/
theorem requestSteps_cases (r : RequestName) (p : List Byte) (owner : State → State × Reply) (s : State) :
    (requestSteps r p owner s).1 = s ∨
      (lengthAllowed r p.length = true ∧ modeRefusal r s.sched.mode = none ∧
        (requestSteps r p owner s).1 = (owner s).1) := by
  unfold requestSteps
  cases hl : lengthAllowed r p.length with
  | false => exact .inl rfl
  | true =>
    cases hm : modeRefusal r s.sched.mode with
    | some e => exact .inl rfl
    | none => exact .inr ⟨rfl, rfl, rfl⟩

/-- A property that the link, and the end of HOST_SILENT, do not bear on is kept by taking a request when performing it
keeps it. -/
theorem takeFrame_keeps {P : State → Prop} {f : RequestFrame} {act : State → State × Reply}
    (link : ∀ u l, P u → P (u.setLink l)) (silent : ∀ u, P u → P (deactivate .hostSilent u))
    (perform : ∀ u, u.inReset = false → P u → P (act u).1) (h : P s) : P (takeFrame f act s) := by
  have sends : ∀ g u, P u → P (transmit g u) := by
    intro g u hu
    unfold transmit beginSending
    split
    · exact link u _ hu
    · exact link u _ hu
  rcases takeFrame_cases f act s with e | ⟨t, hr, ha, e⟩
  · exact e.symm ▸ h
  · have taken : P t ∧ t.inReset = false := by
      refine ⟨?_, ((admitFrame_touches ha).same .inReset (by simp)).trans hr⟩
      rcases admitFrame_cases ha with rfl | ⟨rest, -, rfl⟩
      · exact silent _ (link s _ h)
      · exact link s _ h
    rcases e with ⟨r, -, e⟩ | e
    · exact e.symm ▸ sends _ t taken.1
    · exact e.symm ▸ sends _ _ (link _ _ (perform t taken.2 taken.1))

/-- The same for a request of section 10.7, whose owner acts in a mode that R181 allows. -/
theorem takeRequest_keeps {P : State → Prop} {r : RequestName} {num : Word16} {p : List Byte}
    {owner : State → State × Reply}
    (link : ∀ u l, P u → P (u.setLink l)) (silent : ∀ u, P u → P (deactivate .hostSilent u))
    (own : ∀ u, u.inReset = false → lengthAllowed r p.length = true → modeRefusal r u.sched.mode = none → P u →
      P (owner u).1) (h : P s) : P (takeRequest r num p owner s) :=
  takeFrame_keeps link silent (fun u hu hp => by
    rcases requestSteps_cases r p owner u with e | ⟨hl, hm, e⟩
    · exact e.symm ▸ hp
    · exact e.symm ▸ own u hu hl hm hp) h

theorem takeFrame_touches {ps : List Piece} {f : RequestFrame} {act : State → State × Reply}
    (hl : Piece.link ∈ ps) (hc : Piece.conds ∈ ps) (perform : ∀ u, Touches ps u (act u).1) :
    Touches ps s (takeFrame f act s) :=
  takeFrame_keeps (P := fun u => Touches ps s u)
    (fun u l hu => hu.trans ((setLink_touches u l).mono (by simpa using hl)))
    (fun u hu => hu.trans ((deactivate_touches u .hostSilent).mono (by simpa using hc)))
    (fun u _ hu => hu.trans (perform u)) (.refl ps s)

/-! ## What each owner may touch -/

theorem changeBitRate_touches (r : BitRate) (s : State) : Touches [.params, .wire] s (changeBitRate r s) :=
  .ite (.refl _ s) ⟨le_rfl, rfl, fun p hp => by cases p <;> simp_all [Piece.same]⟩

theorem applyParam_touches (n v : Nat) (s : State) : Touches [.params, .wire, .link] s (applyParam n v s) := by
  unfold applyParam
  split
  case h_4 => exact (changeBitRate_touches _ s).mono
  all_goals exact ⟨le_rfl, rfl, fun p hp => by cases p <;> simp_all [Piece.same]⟩

theorem applyParams_touches (es : List (Nat × Nat)) (s : State) :
    Touches [.params, .wire, .link] s (applyParams es s) :=
  overAll_touches fun e t => applyParam_touches e.1 e.2 t

theorem ownConfigure_touches (p : List Byte) (s : State) :
    Touches [.params, .wire, .link] s (ownConfigure p s).1 := by
  unfold ownConfigure
  dsimp only
  split
  · exact .refl _ s
  · split
    · split
      · exact .refl _ s
      · exact applyParams_touches _ s
    · exact applyParams_touches _ s

/-- The pieces that START and STOP may touch. -/
def runPieces : List Piece :=
  [.mode, .cycle, .waiting, .presented, .counts, .traffic, .pointer, .points, .gap, .reports, .conds, .lines]

theorem startCycle_touches (s : State) : Touches runPieces s (startCycle s) :=
  Touches.trans (t := changePoints (Point.withQuality .noSource) s.points (s.setRoster { s.roster with probePointer := 1 }))
    (Touches.trans (t := s.setRoster { s.roster with probePointer := 1 })
      ⟨le_rfl, rfl, fun p hp => by cases p <;> simp_all [Piece.same, runPieces]⟩
      ((changePoints_touches _ _ _).mono (by simp [runPieces])))
    ⟨le_rfl, rfl, fun p hp => by cases p <;> simp_all [Piece.same, runPieces, startCycle]⟩

theorem stopCycle_touches (s : State) : Touches runPieces s (stopCycle s) := by
  have stops : Touches runPieces s (s.setSched { s.sched with mode := .stopping, markWaiting := false, waiting := [] }) :=
    ⟨le_rfl, rfl, fun p hp => by cases p <;> simp_all [Piece.same, runPieces]⟩
  exact (stops.trans ((changePoints_touches _ (Point.withQuality .offline) _).mono (by simp [runPieces]))).trans
    ((evaluateForeign_touches _).mono (by simp [runPieces]))

theorem ownAddSlot_touches (p : List Byte) (s : State) : Touches [.shadow] s (ownAddSlot p s).1 := by
  unfold ownAddSlot
  dsimp only
  split_ifs
  case neg => exact ⟨le_rfl, rfl, fun p hp => by cases p <;> simp_all [Piece.same, accept]⟩
  all_goals exact .refl _ s

theorem ownDeleteSlot_touches (p : List Byte) (s : State) : Touches [.shadow] s (ownDeleteSlot p s).1 := by
  unfold ownDeleteSlot
  split_ifs
  case neg => exact ⟨le_rfl, rfl, fun p hp => by cases p <;> simp_all [Piece.same, accept]⟩
  all_goals exact .refl _ s

theorem replaceShadow_touches (bank : State → List Slot) (s : State) : Touches [.shadow] s (replaceShadow bank s).1 := by
  unfold replaceShadow
  split_ifs
  · exact .refl _ s
  · exact ⟨le_rfl, rfl, fun p hp => by cases p <;> simp_all [Piece.same, accept]⟩

theorem ownSwap_touches (s : State) : Touches [.active, .counts] s (ownSwap s).1 := by
  unfold ownSwap
  split
  · exact ⟨le_rfl, rfl, fun p hp => by cases p <;> simp_all [Piece.same, accept, exchangeBanks]⟩
  · split_ifs
    · exact .refl _ s
    · exact ⟨le_rfl, rfl, fun p hp => by cases p <;> simp_all [Piece.same, accept]⟩
  · exact .refl _ s

theorem ownCancelSwap_touches (s : State) : Touches [.counts] s (ownCancelSwap s).1 := by
  unfold ownCancelSwap
  split_ifs
  · exact ⟨le_rfl, rfl, fun p hp => by cases p <;> simp_all [Piece.same, accept]⟩
  · exact .refl _ s

/-- R60: a request that names an address touches what its meaning at an address touches. -/
theorem forAddress_touches {ps : List Piece} {p : List Byte} {act : Nat → State → State × Reply}
    (h : ∀ a, Touches ps s (act a s).1) : Touches ps s (forAddress p act s).1 := by
  unfold forAddress
  split
  · exact h _
  · exact .refl ps s

theorem admitEntry_touches (a : Nat) (s : State) :
    Touches [.entries, .points, .reports, .conds, .lines] s (admitEntry a s).1 := by
  unfold admitEntry
  split
  · exact (setEntry_touches s a _).mono.trans (becomeActive_touches _ a _ _ _)
  · exact .refl _ s

theorem barEntry_touches (a : Nat) (s : State) : Touches outcomePieces s (barEntry a s) :=
  .ite (loseStation_touches s a _ _) ((setEntry_touches s a _).mono (by simp [outcomePieces]))

theorem unbarEntry_touches (a : Nat) (s : State) : Touches [.entries] s (unbarEntry a s).1 := by
  unfold unbarEntry
  split
  · exact setEntry_touches s a _
  · exact .refl _ s

theorem ownDeclare_touches (p : List Byte) (s : State) : Touches [.points] s (ownDeclare p s).1 := by
  unfold ownDeclare
  dsimp only
  split_ifs
  case neg => exact setPoints_touches s _
  all_goals exact .refl _ s

theorem ownWithdraw_touches (p : List Byte) (s : State) : Touches [.points] s (ownWithdraw p s).1 := by
  unfold ownWithdraw
  dsimp only
  split
  · exact .refl _ s
  · split
    · exact .refl _ s
    · split
      · exact .refl _ s
      · exact setPoints_touches s _

theorem ownWatch_touches (p : List Byte) (s : State) : Touches [.points] s (ownWatch p s).1 := by
  unfold ownWatch
  split
  · split
    · exact setPoints_touches s _
    · exact .refl _ s
  · exact .refl _ s

theorem ownSend_touches (p : List Byte) (s : State) : Touches [.outbound, .reports] s (ownSend p s).1 := by
  unfold ownSend
  split
  · exact .refl _ s
  · split
    · exact .refl _ s
    · split
      · exact .refl _ s
      · split
        · exact .refl _ s
        · split
          · exact .refl _ s
          · exact (setOutbound_touches s _).mono.trans (takeReservation_touches _).mono

theorem ownCancel_touches (p : List Byte) (s : State) : Touches [.outbound, .reports] s (ownCancel p s).1 := by
  unfold ownCancel
  split
  · exact .refl _ s
  · split
    · exact (settleMessage_touches s _ _ _).mono
    · exact .refl _ s

theorem ownAckReports_touches (p : List Byte) (s : State) : Touches [.reports, .conds] s (ownAckReports p s).1 := by
  unfold ownAckReports
  split
  · exact .refl _ s
  · exact (setReports_touches s _).mono.trans (overflowIfDue_touches _)

theorem ownSetLevel_touches (p : List Byte) (s : State) : Touches [.reports] s (ownSetLevel p s).1 := by
  unfold ownSetLevel
  split
  · exact .refl _ s
  · split
    · exact setReports_touches s _
    · exact .refl _ s

theorem ownClearConditions_touches (p : List Byte) (s : State) : Touches [.conds] s (ownClearConditions p s).1 := by
  unfold ownClearConditions
  split
  · exact .refl _ s
  · exact overAll_touches fun n t => clearLatch_touches t n

theorem configureLine_touches (i : Fin 8) (r : LineRequest) (s : State) : Touches [.lines] s (configureLine i r s).1 := by
  unfold configureLine
  split
  · exact putLine_touches s i _
  · exact putLine_touches s i _
  · split
    · exact .refl _ s
    · exact putLine_touches s i _
  · exact putLine_touches s i _
  · split
    · exact .refl _ s
    · split
      · exact putLine_touches s i _
      · exact .refl _ s

theorem ownSetLine_touches (p : List Byte) (s : State) : Touches [.lines] s (ownSetLine p s).1 := by
  unfold ownSetLine
  split
  · exact .refl _ s
  · exact configureLine_touches _ _ s

theorem ownWriteLine_touches (p : List Byte) (s : State) : Touches [.lines] s (ownWriteLine p s).1 := by
  unfold ownWriteLine
  split
  · split
    · exact putLine_touches s _ _
    · exact .refl _ s
  · exact .refl _ s

theorem ownSetLinkRate_touches (p : List Byte) (s : State) : Touches [.link] s (ownSetLinkRate p s).1 := by
  unfold ownSetLinkRate
  split
  · exact .refl _ s
  · split
    · exact .refl _ s
    · exact setLink_touches s _

/-- The pieces that the owner of a request may touch. -/
def ownerPieces : RequestName → List Piece
  | .configure => [.params, .wire, .link]
  | .start | .stop => runPieces
  | .addSlot | .deleteSlot | .clearShadow | .copyActive => [.shadow]
  | .swap => [.active, .counts]
  | .cancelSwap => [.counts]
  | .admitStation => [.entries, .points, .reports, .conds, .lines]
  | .bar => outcomePieces
  | .unbar | .provision | .forget => [.entries]
  | .declare | .withdraw | .watch => [.points]
  | .send | .cancel => [.outbound, .reports]
  | .ackReports => [.reports, .conds]
  | .resendReports | .setLevel => [.reports]
  | .clearConditions => [.conds]
  | .setLine | .writeLine => [.lines]
  | .setLinkRate | .restart => [.link]
  | .readConfig | .readSlots | .readDevice | .listDevices | .readPoint | .listMessages | .readConditions | .readLines
  | .identify | .status => []

theorem ownerOf_touches (r : RequestName) (p : List Byte) (s : State) :
    Touches (ownerPieces r) s (ownerOf r p s).1 := by
  cases r
  case configure => exact ownConfigure_touches p s
  case start => exact startCycle_touches s
  case stop => exact stopCycle_touches s
  case addSlot => exact ownAddSlot_touches p s
  case deleteSlot => exact ownDeleteSlot_touches p s
  case clearShadow => exact replaceShadow_touches _ s
  case copyActive => exact replaceShadow_touches _ s
  case swap => exact ownSwap_touches s
  case cancelSwap => exact ownCancelSwap_touches s
  case admitStation => exact forAddress_touches fun a => admitEntry_touches a s
  case bar => exact forAddress_touches fun a => barEntry_touches a s
  case unbar => exact forAddress_touches fun a => unbarEntry_touches a s
  case provision => exact forAddress_touches fun a => setEntry_touches s a _
  case forget => exact forAddress_touches fun a => setEntry_touches s a _
  case declare => exact ownDeclare_touches p s
  case withdraw => exact ownWithdraw_touches p s
  case watch => exact ownWatch_touches p s
  case send => exact ownSend_touches p s
  case cancel => exact ownCancel_touches p s
  case ackReports => exact ownAckReports_touches p s
  case resendReports => exact setReports_touches s _
  case setLevel => exact ownSetLevel_touches p s
  case clearConditions => exact ownClearConditions_touches p s
  case setLine => exact ownSetLine_touches p s
  case writeLine => exact ownWriteLine_touches p s
  case setLinkRate => exact ownSetLinkRate_touches p s
  case restart => exact setLink_touches s _
  case readSlots =>
    change Touches [] s (ownReadSlots p s).1
    unfold ownReadSlots
    split <;> exact .refl _ s
  case readDevice => exact forAddress_touches fun _ => .refl _ s
  case listDevices =>
    change Touches [] s (ownListDevices p s).1
    unfold ownListDevices
    split <;> exact .refl _ s
  case readPoint =>
    change Touches [] s (ownReadPoint p s).1
    unfold ownReadPoint
    split
    · exact .refl _ s
    · split <;> exact .refl _ s
  all_goals exact .refl _ s

/-- R179: a request touches the link, HOST_SILENT, and what its owner touches. -/
theorem takeRequest_touches (r : RequestName) (num : Word16) (p : List Byte) (s : State) :
    Touches (.link :: .conds :: ownerPieces r) s (takeRequest r num p (ownerOf r p) s) :=
  takeFrame_touches (by simp) (by simp) fun u => by
    rcases requestSteps_cases r p (ownerOf r p) u with e | ⟨-, -, e⟩
    · exact e.symm ▸ .refl _ u
    · exact e.symm ▸ (ownerOf_touches r p u).mono (by simp)

end Sys2Proof.Machine
end

section
/-! PROOFS. What each happening may touch, and with it every command. -/

-- One theorem after another: theorems checked side by side would each hold a thread.
set_option Elab.async false

namespace Sys2Proof.Machine

variable {s t : State}

/-! ## The link (R173-R184) -/

theorem dropFormat_touches (s : State) : Touches [.link] s (dropFormat s) := setLink_touches s _

theorem enterBuffer_touches (f : RequestFrame) (s : State) : Touches [.link] s (enterBuffer f s) :=
  .ite (setLink_touches s _) (setLink_touches s _)

theorem judgeFrame_touches (bs : List Byte) (s : State) : Touches [.link, .conds] s (judgeFrame bs s) := by
  have hunts := (setLink_touches s { s.link with assembler := .hunting }).mono (qs := [.link, .conds])
  unfold judgeFrame
  refine .ite (hunts.trans (setLink_touches _ _).mono) (.ite (hunts.trans (dropFormat_touches _).mono) ?_)
  exact (hunts.trans (validFrame_touches _)).trans (enterBuffer_touches _ _).mono

theorem takeByte_touches (b : Byte) (s : State) : Touches [.link, .conds] s (takeByte b s) := by
  unfold takeByte
  split
  · exact (setLink_touches s _).mono
  · unfold assembleByte
    split
    · exact .ite (setLink_touches s _).mono (dropFormat_touches s).mono
    · exact (setLink_touches s _).mono
  · exact (judgeFrame_touches _ s).trans (setLink_touches _ _).mono

theorem takeOffer_touches (s : State) : Touches [.link, .reports] s (takeOffer s) := by
  unfold takeOffer
  split
  · exact (setReports_touches s _).mono.trans (beginSending_touches _ _).mono
  · split
    · split
      · exact (setReports_touches s _).mono.trans (beginSending_touches _ _).mono
      · exact .refl _ s
    · exact .refl _ s

theorem startWaiting_touches (s : State) : Touches [.link] s (startWaiting s) := by
  unfold startWaiting
  split
  · exact (setLink_touches s _).trans (beginSending_touches _ _)
  · exact .refl _ s

/-- Every piece of the state. -/
def allPieces : List Piece :=
  [.inReset, .mode, .cycle, .active, .shadow, .params, .waiting, .presented, .counts, .record, .traffic, .entries, .pointer,
    .points, .gap, .outbound, .attention, .reports, .conds, .lines, .transmitter, .babble, .wire, .link]

theorem mem_allPieces (p : Piece) : p ∈ allPieces := by cases p <;> simp [allPieces]

/-- A change that keeps the queue of commands and does not turn the clock back. -/
theorem touches_all (h : s.now ≤ t.now) (hp : t.pending = s.pending) : Touches allPieces s t :=
  ⟨h, hp, fun p hn => (hn (mem_allPieces p)).elim⟩

theorem resetPart_touches (c : StartCause) (r : LinkRate) (s : State) : Touches allPieces s (resetPart c r s) :=
  touches_all le_rfl rfl

theorem afterResponse_touches (s : State) : Touches allPieces s (afterResponse s) := by
  unfold afterResponse
  refine .ite (resetPart_touches _ _ _) ?_
  split
  · exact touches_all le_rfl rfl
  · exact .refl _ s

theorem finishFrame_touches (s : State) : Touches allPieces s (finishFrame s) := by
  unfold finishFrame
  split
  · exact .refl _ s
  · rename_i f _
    extract_lets reached _ freed
    have free : Touches allPieces s freed := touches_all (now_le_reach s _) rfl
    have after : Touches allPieces s (if f.cls = classResponse then afterResponse freed else freed) :=
      .ite (free.trans (afterResponse_touches freed)) free
    have start := startWaiting_touches (if f.cls = classResponse then afterResponse freed else freed)
    exact after.trans (touches_all start.later start.pending)

theorem holdInReset_touches (s : State) :
    Touches [.inReset, .record, .lines, .transmitter, .link] s (holdInReset s) :=
  ⟨le_rfl, rfl, fun p hp => by cases p <;> simp_all [Piece.same, holdInReset]⟩

theorem forceOutputsSafe_touches (s : State) : Touches [.lines] s (forceOutputsSafe s) := by
  refine overAll_touches fun i t => ?_
  split
  · exact putLine_touches t i _
  · exact .refl _ t

/-! ## The cycle (R7, R16-R21) -/

theorem discardSwap_touches (s : State) : Touches [.counts, .reports, .conds] s (discardSwap s) :=
  .ite (Touches.trans (t := s.setSched { s.sched with swapPending := false })
    ⟨le_rfl, rfl, fun p hp => by cases p <;> simp_all [Piece.same]⟩ (raiseReport_touches _ _ _).mono) (.refl _ s)

theorem settleRoster_touches (s : State) : Touches [.entries] s (settleRoster s) :=
  overAll_touches fun a t => setEntry_touches t a _

theorem abortMessages_touches (s : State) : Touches [.reports, .outbound] s (abortMessages s) :=
  overAll_touches fun m t => settleMessage_touches t m _ _

theorem clearTriggers_touches (s : State) : Touches [.lines] s (clearTriggers s) :=
  overAll_touches fun i t => changeInput_touches t i _

/-- The pieces that the end of STOPPING may touch. -/
def stoppingEndPieces : List Piece :=
  [.mode, .counts, .presented, .reports, .conds, .entries, .attention, .outbound, .lines]

theorem endStopping_touches (s : State) : Touches stoppingEndPieces s (endStopping s) := by
  unfold endStopping
  extract_lets sched opened swapped settled unattended aborted untriggered evaluated
  have opens : Touches stoppingEndPieces s opened :=
    ⟨le_rfl, rfl, fun p hp => by cases p <;> simp_all [Piece.same, stoppingEndPieces, opened, sched]⟩
  have swap : Touches stoppingEndPieces opened swapped := (discardSwap_touches _).mono (by simp [stoppingEndPieces])
  have roster : Touches stoppingEndPieces swapped settled := (settleRoster_touches _).mono (by simp [stoppingEndPieces])
  have attention : Touches stoppingEndPieces settled unattended :=
    (setAttention_touches _ []).mono (by simp [stoppingEndPieces])
  have messages : Touches stoppingEndPieces unattended aborted :=
    (abortMessages_touches _).mono (by simp [stoppingEndPieces])
  have lines : Touches stoppingEndPieces aborted untriggered :=
    (clearTriggers_touches _).mono (by simp [stoppingEndPieces])
  have foreign : Touches stoppingEndPieces untriggered evaluated :=
    (evaluateForeign_touches _).mono (by simp [stoppingEndPieces])
  have stopped := (raiseReport_touches evaluated .stopped (be32 evaluated.sched.cycle.toNat)).mono
    (qs := stoppingEndPieces) (by simp [stoppingEndPieces])
  exact (((((((opens.trans swap).trans roster).trans attention).trans messages).trans lines).trans foreign).trans stopped)

theorem overrunLate_touches (s : State) : Touches [.counts] s (overrunLate s) :=
  .ite ⟨le_rfl, rfl, fun p hp => by cases p <;> simp_all [Piece.same]⟩ (.refl _ s)

theorem skipOverruns_touches (s : State) : Touches [.waiting, .counts] s (skipOverruns s) :=
  (overAll_touches (xs := overrunSlots s) fun x t => (recordSkip_touches t x.offset .overrun).mono).trans
    ⟨le_rfl, rfl, fun p hp => by cases p <;> simp_all [Piece.same, skipOverruns]⟩

theorem dropMark_touches (s : State) : Touches [.counts, .reports, .conds] s (dropMark s) := by
  have drops : Touches [.counts, .reports, .conds] s (s.setSched { s.sched with markWaiting := false }) :=
    ⟨le_rfl, rfl, fun p hp => by cases p <;> simp_all [Piece.same]⟩
  exact .ite ((drops.trans (latchCycleLate_touches _).mono).trans (raiseReport_touches _ _ _).mono) (.refl _ s)

theorem carryOutSwap_touches (s : State) : Touches [.active, .counts, .reports, .conds] s (carryOutSwap s) :=
  .ite (Touches.trans (t := exchangeBanks (s.setSched { s.sched with swapPending := false }))
    ⟨le_rfl, rfl, fun p hp => by cases p <;> simp_all [Piece.same, exchangeBanks]⟩ (raiseReport_touches _ _ _).mono)
    (.refl _ s)

theorem openCycle_touches (s : State) : Touches [.cycle, .presented] s (openCycle s) :=
  ⟨le_rfl, rfl, fun p hp => by cases p <;> simp_all [Piece.same, openCycle]⟩

theorem expireForeignByCycle_touches (s : State) : Touches [.traffic, .conds] s (expireForeignByCycle s) := by
  unfold expireForeignByCycle
  extract_lets expired
  have ends : Touches [.traffic, .conds] s expired := .ite (deactivate_touches s .foreign).mono (.refl _ s)
  exact ends.trans (setTraffic_touches _ _ _ _).mono

theorem reportSkips_touches (n : Word32) (s : State) : Touches [.counts, .reports, .conds] s (reportSkips n s) := by
  unfold reportSkips
  extract_lets reported
  have reports : Touches [.counts, .reports, .conds] s reported := by
    unfold reported
    split
    · exact (raiseReport_touches s _ _).mono
    · exact .refl _ s
  have empties : Touches [.counts, .reports, .conds] reported
      (reported.setSched { reported.sched with summary := .empty }) :=
    ⟨le_rfl, rfl, fun p hp => by cases p <;> simp_all [Piece.same]⟩
  exact reports.trans empties

/-- The pieces that a boundary may touch. -/
def boundaryPieces : List Piece :=
  [.cycle, .active, .counts, .waiting, .presented, .points, .reports, .conds, .lines, .gap, .traffic]

theorem crossBoundary_touches (s : State) : Touches boundaryPieces s (crossBoundary s) := by
  unfold crossBoundary
  extract_lets ended dropped opened aged _ calmed expired reported
  have late : Touches boundaryPieces s (skipOverruns (overrunLate s)) :=
    ((overrunLate_touches s).mono (by simp [boundaryPieces])).trans
      ((skipOverruns_touches _).mono (by simp [boundaryPieces]))
  have mark : Touches boundaryPieces (skipOverruns (overrunLate s)) dropped :=
    (dropMark_touches _).mono (by simp [boundaryPieces])
  have cycle : Touches boundaryPieces dropped opened :=
    ((carryOutSwap_touches _).mono (by simp [boundaryPieces])).trans
      ((openCycle_touches _).mono (by simp [boundaryPieces]))
  have ages : Touches boundaryPieces opened aged := (changePoints_touches _ _ _).mono (by simp [boundaryPieces])
  have calms : Touches boundaryPieces aged calmed := (setGap_touches _ _).mono (by simp [boundaryPieces])
  have foreign : Touches boundaryPieces calmed expired :=
    (expireForeignByCycle_touches _).mono (by simp [boundaryPieces])
  have skipped : Touches boundaryPieces expired reported := (reportSkips_touches _ _).mono (by simp [boundaryPieces])
  have marks : Touches boundaryPieces reported (reported.setSched { reported.sched with markWaiting := true }) :=
    ⟨le_rfl, rfl, fun p hp => by cases p <;> simp_all [Piece.same, boundaryPieces]⟩
  exact (((((late.trans mark).trans cycle).trans ages).trans calms).trans foreign).trans (skipped.trans marks)

theorem handOver_touches (o : Origin) (k : FrameKind) (a : Nat) (b : List Byte) (e : Option Expected) (s : State) :
    Touches [.record] s (handOver o k a b e s) := setRecord_touches s _

theorem startMark_touches (s : State) : Touches [.counts, .record] s (startMark s) :=
  ⟨le_rfl, rfl, fun p hp => by cases p <;> simp_all [Piece.same, startMark, handOver]⟩

theorem presentSlot_touches (x : Slot) (s : State) : Touches [.presented, .waiting, .counts] s (presentSlot x s) := by
  unfold presentSlot
  dsimp only
  split_ifs <;> exact ⟨le_rfl, rfl, fun p hp => by cases p <;> simp_all [Piece.same, countAbsent]⟩

theorem startSlot_touches (x : Slot) (s : State) : Touches [.waiting, .record] s (startSlot x s) :=
  ⟨le_rfl, rfl, fun p hp => by cases p <;> simp_all [Piece.same, startSlot, handOver]⟩

theorem skipLate_touches (o : Nat) (s : State) : Touches [.waiting, .counts] s (skipLate o s) :=
  ⟨le_rfl, rfl, fun p hp => by cases p <;> simp_all [Piece.same, skipLate, recordSkip]⟩

/-! ## Gap work (R93-R98) -/

/-- The pieces that the arbiter's consideration may touch. -/
def gapPieces : List Piece := [.lines, .reports, .conds, .record, .outbound, .gap, .attention, .pointer]

theorem startTrigger_touches (i : Fin 8) (k : Key) (s : State) : Touches [.lines, .record] s (startTrigger i k s) :=
  (changeInput_touches s i _).mono.trans (handOver_touches _ _ _ _ _ _).mono

theorem startSend_touches (m : Message) (s : State) : Touches [.outbound, .gap, .record] s (startSend m s) :=
  ((changeMessage_touches s m.tag _).mono.trans (setGap_touches _ _).mono).trans (handOver_touches _ _ _ _ _ _).mono

theorem startFetch_touches (a : Nat) (rest : List Nat) (s : State) :
    Touches [.reports, .attention, .gap, .record] s (startFetch a rest s) :=
  (((takeReservation_touches s).mono.trans (setAttention_touches _ rest).mono).trans (setGap_touches _ _).mono).trans
    (handOver_touches _ _ _ _ _ _).mono

theorem startRoll_touches (a : Nat) (s : State) : Touches [.gap, .pointer, .record] s (startRoll a s) :=
  ⟨le_rfl, rfl, fun p hp => by cases p <;> simp_all [Piece.same, startRoll, handOver]⟩

/-- R93: considering one candidate and then others touches what each may touch. -/
theorem orNext_touches {ps : List Piece} {r : GapResult} {f : State → GapResult} (h : Touches ps s r.state)
    (hf : ∀ u, Touches ps u (f u).state) : Touches ps s (r.orNext f).state := by
  cases r with
  | started u => exact h
  | passed u => exact h.trans (hf u)

theorem considerTrigger_touches (i : Fin 8) (s : State) : Touches gapPieces s (considerTrigger i s).state := by
  unfold considerTrigger
  split
  · split
    · split
      · exact .refl _ s
      · split
        · exact (dropTrigger_touches s i _ _).mono (by simp [gapPieces])
        · split
          · split
            · exact (startTrigger_touches i _ s).mono (by simp [gapPieces])
            · exact .refl _ s
          · exact .refl _ s
    · exact .refl _ s
  · exact .refl _ s

theorem considerTriggers_touches (s : State) : Touches gapPieces s (considerTriggers s).state := by
  have each : ∀ (xs : List (Fin 8)) (r : GapResult), Touches gapPieces s r.state →
      Touches gapPieces s (xs.foldl (fun r i => r.orNext (considerTrigger i)) r).state := by
    intro xs
    induction xs with
    | nil => exact fun r hr => hr
    | cons i xs ih => exact fun r hr => ih _ (orNext_touches hr (considerTrigger_touches i))
  exact each allLines _ (.refl _ s)

theorem considerMessage_touches (c : MessageClass) (s : State) : Touches gapPieces s (considerMessage c s).state := by
  unfold considerMessage
  split
  · split
    · exact (startSend_touches _ s).mono (by simp [gapPieces])
    · exact .refl _ s
  · exact .refl _ s

theorem considerFetch_touches (s : State) : Touches gapPieces s (considerFetch s).state := by
  unfold considerFetch
  split
  · split
    · exact (startFetch_touches _ _ s).mono (by simp [gapPieces])
    · exact .refl _ s
  · exact .refl _ s

theorem considerAlternating_touches (s : State) : Touches gapPieces s (considerAlternating s).state := by
  unfold considerAlternating
  split
  · exact orNext_touches (considerFetch_touches s) (considerMessage_touches .normal)
  · exact orNext_touches (considerMessage_touches .normal s) considerFetch_touches

theorem considerRoll_touches (s : State) : Touches gapPieces s (considerRoll s).state := by
  unfold considerRoll
  split
  · split
    · exact (startRoll_touches _ s).mono (by simp [gapPieces])
    · exact .refl _ s
  · exact .refl _ s

theorem consider_touches (s : State) : Touches gapPieces s (consider s).state :=
  orNext_touches (orNext_touches (orNext_touches (considerTriggers_touches s) (considerMessage_touches .urgent))
    considerAlternating_touches) considerRoll_touches

/-! ## The transaction and the segment line (R28-R40, R160-R169) -/

theorem setPhase_touches (r : Record) (p : Phase) (s : State) : Touches [.record] s (setPhase r p s) :=
  setRecord_touches s _

theorem measureMark_touches (o : Origin) (s : State) : Touches [.reports, .conds] s (measureMark o s) := by
  unfold measureMark
  split
  · exact .ite ((latchCycleLate_touches s).mono.trans (raiseReport_touches _ _ _)) (.refl _ s)
  · exact .refl _ s

theorem leaveIdle_touches (r : Record) (s : State) :
    Touches [.record, .transmitter, .wire, .reports, .conds] s (leaveIdle r s) := by
  have leaves : Touches [.record, .transmitter, .wire, .reports, .conds] s
      ((setPhase r (.sending s.now) s).setSeg { s.seg with transmitter := .sending r.body s.now, echo := none }) :=
    ⟨le_rfl, rfl, fun p hp => by cases p <;> simp_all [Piece.same, setPhase]⟩
  exact leaves.trans (measureMark_touches _ _).mono

theorem followEcho_touches (v : EchoVerdict) (s : State) : Touches [.conds] s (followEcho v s) := by
  unfold followEcho
  split
  · exact activate_touches s _
  · exact deactivate_touches s _
  · exact .refl _ s

theorem leaveSending_touches (r : Record) (v : EchoVerdict) (n : Nat) (s : State) :
    Touches (.record :: outcomePieces) s (leaveSending r v n s) := by
  unfold leaveSending
  refine .ite (endRecord_touches s _) ?_
  split
  · exact .ite (endRecord_touches s _) (setPhase_touches r _ s).mono
  · exact endRecord_touches s _
  · exact endRecord_touches s _

theorem returnToIdle_touches (v : EchoVerdict) (n : Nat) (s : State) :
    Touches [.transmitter, .wire] s (returnToIdle v n s) :=
  ⟨le_rfl, rfl, fun p hp => by cases p <;> simp_all [Piece.same, returnToIdle]⟩

theorem seeTransition_touches (s : State) : Touches [.wire] s (seeTransition s) := setWire_touches s _ rfl rfl

theorem beginFrame_touches (s : State) : Touches [.wire] s (beginFrame s) := setWire_touches s _ rfl rfl

theorem hearTransition_touches (s : State) : Touches [.record] s (hearTransition s) := by
  unfold hearTransition
  split
  · split
    · exact .ite (setPhase_touches _ _ s) (.refl _ s)
    · exact .refl _ s
  · exact .refl _ s

theorem noteEcho_touches (v : Verdict) (s : State) : Touches [.wire] s (noteEcho v s) :=
  .ite (.refl _ s) (setWire_touches s _ rfl rfl)

/-- The pieces that the end of a frame's reading may touch. -/
def framePieces : List Piece := .wire :: verdictPieces

theorem giveVerdict_touches (f : FrameInProgress) (v : Verdict) (s : State) : Touches framePieces s (giveVerdict f v s) :=
  .ite ((noteEcho_touches v s).mono (by simp [framePieces])) ((receivedVerdict_touches s v).mono (by simp [framePieces]))

theorem closeFrame_touches (f : FrameInProgress) (v : Verdict) (s : State) : Touches framePieces s (closeFrame f v s) := by
  unfold closeFrame
  refine Touches.trans ((setWire_touches s _ ?_ ?_).mono (by simp [framePieces])) (giveVerdict_touches f v _) <;>
    split <;> rfl

theorem takeDelimiter_touches (r : Receiver) (f : FrameInProgress) (s : State) :
    Touches [.wire] s (takeDelimiter r f s) :=
  (reach_touches s _).mono.trans (setWire_touches _ _ rfl rfl)

theorem fallQuiet_touches (s : State) : Touches [.wire] s (fallQuiet s) := setWire_touches s _ rfl rfl

theorem abandonRecord_touches (s : State) : Touches (.record :: outcomePieces) s (abandonRecord s) := by
  unfold abandonRecord
  split
  · exact .refl _ s
  · split
    · exact (setRecord_touches s _).mono
    · exact endRecord_touches s _

theorem declareBabble_touches (s : State) : Touches (.babble :: .record :: outcomePieces) s (declareBabble s) := by
  refine Touches.trans (Touches.trans (Touches.trans (t := s.setSeg { s.seg with babbleFault := true })
    ⟨le_rfl, rfl, fun p hp => by cases p <;> simp_all [Piece.same]⟩
    ((activate_touches _ .babble).mono (by simp [outcomePieces, lossPieces])))
    ((raiseReport_touches _ _ _).mono (by simp [outcomePieces, lossPieces])))
    ((abandonRecord_touches _).mono (by simp))

theorem endBabble_touches (s : State) : Touches [.babble, .reports, .conds] s (endBabble s) := by
  have ends : Touches [.babble, .reports, .conds] s (s.setSeg { s.seg with babbleFault := false }) :=
    ⟨le_rfl, rfl, fun p hp => by cases p <;> simp_all [Piece.same]⟩
  exact (ends.trans (deactivate_touches _ _).mono).trans (raiseReport_touches _ _ _).mono

/-! ## The local lines (R146-R148) -/

theorem changeFiltered_touches (i : Fin 8) (l : InputLine) (v : Level) (s : State) :
    Touches [.lines, .reports, .conds] s (changeFiltered i l v s) :=
  .ite (((putLine_touches s i _).mono.trans (.ite (raiseReport_touches _ _ _).mono (.refl _ _))).trans
    (changeInput_touches _ i _).mono) (putLine_touches s i _).mono

theorem setPin_touches (i : Fin 8) (v : Level) (s : State) : Touches [.lines] s (setPin i v s) := setLines_touches s _

theorem seePin_touches (i : Fin 8) (v : Level) (s : State) : Touches [.lines, .reports, .conds] s (seePin i v s) := by
  unfold seePin
  split
  · exact .ite (putLine_touches s i _).mono (.ite (changeFiltered_touches i _ v s) (putLine_touches s i _).mono)
  · exact .refl _ s

theorem takeLasting_touches (i : Fin 8) (s : State) : Touches [.lines, .reports, .conds] s (takeLasting i s) := by
  unfold takeLasting
  split
  · split
    · exact .ite (changeFiltered_touches i _ _ s) (.refl _ s)
    · exact .refl _ s
  · exact .refl _ s

/-! ## Every command -/

/-- A command is the taking of a request of section 10.7, the taking of a request of no known code, or a happening; each
stands with the pieces that it may touch. -/
inductive CommandView : Instr → List Piece → Prop where
  | request (r : RequestName) (num : Word16) (p : List Byte) :
    CommandView (requestCommand r num p) (.link :: .conds :: ownerPieces r)
  | unknownRequest (code : Byte) (num : Word16) (p : List Byte) :
    CommandView (.unknownRequest code num p) [.link, .conds]
  | linkByteReceived (byte : Byte) : CommandView (.linkByteReceived byte) [.link, .conds]
  | linkFrameReceived : CommandView .linkFrameReceived [.link, .conds]
  | linkFormatError (cause : LinkFault) : CommandView (.linkFormatError cause) [.link]
  | interByteTimeout : CommandView .interByteTimeout [.link]
  | reportTaken : CommandView .reportTaken [.link, .reports]
  | linkFrameSent : CommandView .linkFrameSent allPieces
  | linkRateChange : CommandView .linkRateChange allPieces
  | softReset : CommandView .softReset allPieces
  | resetPinAsserted : CommandView .resetPinAsserted [.inReset, .record, .lines, .transmitter, .link]
  | hardReset (cause : HardCause) : CommandView (.hardReset cause) allPieces
  | hostSilentTimeout : CommandView .hostSilentTimeout [.conds, .lines]
  | boundary : CommandView .boundary boundaryPieces
  | markStart : CommandView .markStart [.counts, .record]
  | slotDue (offset : Nat) : CommandView (.slotDue offset) [.presented, .waiting, .counts]
  | slotStart : CommandView .slotStart [.waiting, .record]
  | slotLate (offset : Nat) : CommandView (.slotLate offset) [.waiting, .counts]
  | stoppingEnd : CommandView .stoppingEnd stoppingEndPieces
  | transmitStart : CommandView .transmitStart [.record, .transmitter, .wire, .reports, .conds]
  | waitingLineTimeout : CommandView .waitingLineTimeout (.record :: outcomePieces)
  | answerWindowExpired : CommandView .answerWindowExpired (.record :: outcomePieces)
  | echoVerdict : CommandView .echoVerdict (.transmitter :: .wire :: .record :: outcomePieces)
  | firstTransition : CommandView .firstTransition [.wire, .record]
  | segmentFrameReceived (symbols : List Symbol) : CommandView (.segmentFrameReceived symbols) framePieces
  | startDelimiterTimeout : CommandView .startDelimiterTimeout framePieces
  | lineQuiet : CommandView .lineQuiet framePieces
  | startDelimiterCompleted (symbols : List Symbol) : CommandView (.startDelimiterCompleted symbols) [.wire]
  | turnaroundMet : CommandView .turnaroundMet []
  | foreignTimeExpiry : CommandView .foreignTimeExpiry [.conds]
  | gapConsideration : CommandView .gapConsideration gapPieces
  | babbleDetected : CommandView .babbleDetected (.babble :: .record :: outcomePieces)
  | babbleEnd : CommandView .babbleEnd [.babble, .reports, .conds]
  | localLinePinChange (line : Fin 8) (level : Level) : CommandView (.localLinePinChange line level) [.lines, .reports, .conds]
  | inputFilterExpired (line : Fin 8) : CommandView (.inputFilterExpired line) [.lines, .reports, .conds]

/-- Every command has one of the forms. -/
theorem commandView : ∀ c : Instr, ∃ ps, CommandView c ps
  | .configure n p => ⟨_, .request .configure n p⟩
  | .readConfig n p => ⟨_, .request .readConfig n p⟩
  | .start n p => ⟨_, .request .start n p⟩
  | .stop n p => ⟨_, .request .stop n p⟩
  | .addSlot n p => ⟨_, .request .addSlot n p⟩
  | .deleteSlot n p => ⟨_, .request .deleteSlot n p⟩
  | .clearShadow n p => ⟨_, .request .clearShadow n p⟩
  | .copyActive n p => ⟨_, .request .copyActive n p⟩
  | .readSlots n p => ⟨_, .request .readSlots n p⟩
  | .swap n p => ⟨_, .request .swap n p⟩
  | .cancelSwap n p => ⟨_, .request .cancelSwap n p⟩
  | .admitStation n p => ⟨_, .request .admitStation n p⟩
  | .bar n p => ⟨_, .request .bar n p⟩
  | .unbar n p => ⟨_, .request .unbar n p⟩
  | .provision n p => ⟨_, .request .provision n p⟩
  | .forget n p => ⟨_, .request .forget n p⟩
  | .readDevice n p => ⟨_, .request .readDevice n p⟩
  | .listDevices n p => ⟨_, .request .listDevices n p⟩
  | .declare n p => ⟨_, .request .declare n p⟩
  | .withdraw n p => ⟨_, .request .withdraw n p⟩
  | .readPoint n p => ⟨_, .request .readPoint n p⟩
  | .watch n p => ⟨_, .request .watch n p⟩
  | .send n p => ⟨_, .request .send n p⟩
  | .cancel n p => ⟨_, .request .cancel n p⟩
  | .listMessages n p => ⟨_, .request .listMessages n p⟩
  | .ackReports n p => ⟨_, .request .ackReports n p⟩
  | .resendReports n p => ⟨_, .request .resendReports n p⟩
  | .setLevel n p => ⟨_, .request .setLevel n p⟩
  | .readConditions n p => ⟨_, .request .readConditions n p⟩
  | .clearConditions n p => ⟨_, .request .clearConditions n p⟩
  | .setLine n p => ⟨_, .request .setLine n p⟩
  | .writeLine n p => ⟨_, .request .writeLine n p⟩
  | .readLines n p => ⟨_, .request .readLines n p⟩
  | .identify n p => ⟨_, .request .identify n p⟩
  | .status n p => ⟨_, .request .status n p⟩
  | .setLinkRate n p => ⟨_, .request .setLinkRate n p⟩
  | .restart n p => ⟨_, .request .restart n p⟩
  | .unknownRequest c n p => ⟨_, .unknownRequest c n p⟩
  | .linkByteReceived byte => ⟨_, .linkByteReceived byte⟩
  | .linkFrameReceived => ⟨_, .linkFrameReceived⟩
  | .linkFormatError cause => ⟨_, .linkFormatError cause⟩
  | .interByteTimeout => ⟨_, .interByteTimeout⟩
  | .reportTaken => ⟨_, .reportTaken⟩
  | .linkFrameSent => ⟨_, .linkFrameSent⟩
  | .linkRateChange => ⟨_, .linkRateChange⟩
  | .softReset => ⟨_, .softReset⟩
  | .resetPinAsserted => ⟨_, .resetPinAsserted⟩
  | .hardReset cause => ⟨_, .hardReset cause⟩
  | .hostSilentTimeout => ⟨_, .hostSilentTimeout⟩
  | .boundary => ⟨_, .boundary⟩
  | .markStart => ⟨_, .markStart⟩
  | .slotDue offset => ⟨_, .slotDue offset⟩
  | .slotStart => ⟨_, .slotStart⟩
  | .slotLate offset => ⟨_, .slotLate offset⟩
  | .stoppingEnd => ⟨_, .stoppingEnd⟩
  | .transmitStart => ⟨_, .transmitStart⟩
  | .waitingLineTimeout => ⟨_, .waitingLineTimeout⟩
  | .answerWindowExpired => ⟨_, .answerWindowExpired⟩
  | .echoVerdict => ⟨_, .echoVerdict⟩
  | .firstTransition => ⟨_, .firstTransition⟩
  | .segmentFrameReceived symbols => ⟨_, .segmentFrameReceived symbols⟩
  | .startDelimiterTimeout => ⟨_, .startDelimiterTimeout⟩
  | .lineQuiet => ⟨_, .lineQuiet⟩
  | .startDelimiterCompleted symbols => ⟨_, .startDelimiterCompleted symbols⟩
  | .turnaroundMet => ⟨_, .turnaroundMet⟩
  | .foreignTimeExpiry => ⟨_, .foreignTimeExpiry⟩
  | .gapConsideration => ⟨_, .gapConsideration⟩
  | .babbleDetected => ⟨_, .babbleDetected⟩
  | .babbleEnd => ⟨_, .babbleEnd⟩
  | .localLinePinChange line level => ⟨_, .localLinePinChange line level⟩
  | .inputFilterExpired line => ⟨_, .inputFilterExpired line⟩

/-- Out of reset a happening touches what it touches there; in reset it does nothing. -/
theorem unlessInReset_touches {ps : List Piece} {f : State → State} (h : Touches ps s (f s)) :
    Touches ps s (unlessInReset f s) := .ite (.refl ps s) h

/-- What each command may touch. -/
theorem exec_touches {c : Instr} {ps : List Piece} (v : CommandView c ps) (h : exec c s = .next t) : Touches ps s t := by
  cases v
  case request r num p =>
    rw [exec_request] at h
    cases h
    exact takeRequest_touches r num p s
  case unknownRequest code num p =>
    obtain rfl := Host.Outcome.next.inj h
    exact .ite (.refl _ s) (takeFrame_touches (by simp) (by simp) fun u => .refl _ u)
  all_goals obtain rfl := Host.Outcome.next.inj h
  case linkByteReceived b => exact unlessInReset_touches (takeByte_touches b s)
  case linkFrameReceived =>
    refine unlessInReset_touches ?_
    split
    · exact judgeFrame_touches _ s
    · exact .refl _ s
  case linkFormatError => exact unlessInReset_touches (.ite (dropFormat_touches s) (.refl _ s))
  case interByteTimeout =>
    refine unlessInReset_touches ?_
    split
    · exact (reach_touches s _).mono.trans (setLink_touches _ _)
    · exact .refl _ s
  case reportTaken => exact unlessInReset_touches (.ite (takeOffer_touches s) (.refl _ s))
  case linkFrameSent => exact unlessInReset_touches (finishFrame_touches s)
  case linkRateChange => exact unlessInReset_touches (.ite (finishFrame_touches s) (.refl _ s))
  case softReset => exact unlessInReset_touches (.ite (finishFrame_touches s) (.refl _ s))
  case resetPinAsserted => exact holdInReset_touches s
  case hardReset cause => exact resetPart_touches _ _ s
  case hostSilentTimeout =>
    exact unlessInReset_touches (.ite (((reach_touches s _).mono.trans (activate_touches _ _).mono).trans
      (forceOutputsSafe_touches _).mono) (.refl _ s))
  case boundary =>
    exact unlessInReset_touches (.ite ((reach_touches s _).mono.trans (crossBoundary_touches _)) (.refl _ s))
  case markStart => exact unlessInReset_touches (.ite (startMark_touches s) (.refl _ s))
  case slotDue offset =>
    refine unlessInReset_touches ?_
    split
    · exact .ite ((reach_touches s _).mono.trans (presentSlot_touches _ _)) (.refl _ s)
    · exact .refl _ s
  case slotStart =>
    refine unlessInReset_touches ?_
    split
    · exact .ite (startSlot_touches _ s) (.refl _ s)
    · exact .refl _ s
  case slotLate offset =>
    exact unlessInReset_touches (.ite ((reach_touches s _).mono.trans (skipLate_touches _ _)) (.refl _ s))
  case stoppingEnd => exact unlessInReset_touches (.ite (endStopping_touches s) (.refl _ s))
  case transmitStart =>
    refine unlessInReset_touches ?_
    split
    · split
      · exact .ite ((reach_touches s _).mono.trans (leaveIdle_touches _ _)) (.refl _ s)
      · exact .refl _ s
    · exact .refl _ s
  case waitingLineTimeout =>
    refine unlessInReset_touches ?_
    split
    · split
      · exact (reach_touches s _).mono.trans (endRecord_touches _ _)
      · exact .refl _ s
    · exact .refl _ s
  case answerWindowExpired =>
    refine unlessInReset_touches ?_
    split
    · split
      · exact (reach_touches s _).mono.trans (endRecord_touches _ _)
      · exact .refl _ s
    · exact .refl _ s
  case echoVerdict =>
    refine unlessInReset_touches ?_
    split
    · exact ((((reach_touches s _).mono (by simp)).trans ((returnToIdle_touches _ _ _).mono (by simp))).trans
        ((followEcho_touches _ _).mono (by simp [outcomePieces, lossPieces]))).trans
        ((leaveSending_touches _ _ _ _).mono (by simp))
    · exact .refl _ s
  case firstTransition =>
    refine unlessInReset_touches (.ite ?_ (seeTransition_touches s).mono)
    exact ((seeTransition_touches s).mono.trans (beginFrame_touches _).mono).trans (hearTransition_touches _).mono
  case segmentFrameReceived symbols =>
    refine unlessInReset_touches ?_
    split
    · exact (reach_touches s _).mono.trans (closeFrame_touches _ _ _)
    · exact .refl _ s
  case startDelimiterTimeout =>
    refine unlessInReset_touches ?_
    split
    · exact .ite ((reach_touches s _).mono.trans (closeFrame_touches _ _ _)) (.refl _ s)
    · exact .refl _ s
  case lineQuiet =>
    refine unlessInReset_touches (.ite ?_ (.refl _ s))
    have quiet := (reach_touches s (s.seg.lastTransition + s.bits Config.quietBits)).mono.trans
      ((fallQuiet_touches _).mono (qs := framePieces) (by simp [framePieces]))
    dsimp only
    split
    · exact quiet.trans (giveVerdict_touches _ _ _)
    · exact quiet
  case startDelimiterCompleted symbols =>
    refine unlessInReset_touches ?_
    split
    · split
      · exact .ite (takeDelimiter_touches _ _ s) (.refl _ s)
      · exact .refl _ s
    · exact .refl _ s
  case turnaroundMet => exact unlessInReset_touches (.ite (reach_touches s _) (.refl _ s))
  case foreignTimeExpiry =>
    refine unlessInReset_touches ?_
    split
    · exact .ite ((reach_touches s _).mono.trans (deactivate_touches _ _)) (.refl _ s)
    · exact .refl _ s
  case gapConsideration => exact unlessInReset_touches (.ite (consider_touches s) (.refl _ s))
  case babbleDetected =>
    exact unlessInReset_touches (.ite ((reach_touches s _).mono.trans (declareBabble_touches _)) (.refl _ s))
  case babbleEnd =>
    exact unlessInReset_touches (.ite ((reach_touches s _).mono.trans (endBabble_touches _)) (.refl _ s))
  case localLinePinChange line level =>
    exact .ite (.refl _ s) (((unlessInReset_touches (takeLasting_touches line s)).trans
      (setPin_touches line level _).mono).trans (unlessInReset_touches (seePin_touches line level _)))
  case inputFilterExpired line =>
    refine unlessInReset_touches ?_
    split
    · split
      · exact (reach_touches s _).mono.trans (changeFiltered_touches line _ _ _)
      · exact .refl _ s
    · exact .refl _ s

/-! ## The statements on every command -/

/-- Settles O2: whatever a command touches, the queue stays and the clock is not turned back. -/
theorem commandKeepsQueueAndClock : Obligations.CommandKeepsQueueAndClock := by
  intro c s t h
  obtain ⟨ps, v⟩ := commandView c
  exact ⟨(exec_touches v h).pending, (exec_touches v h).later⟩

/-- Settles O1: both clauses are the two branches of a step. -/
theorem stepRunsFrontCommand : Obligations.StepRunsFrontCommand := by
  constructor
  · intro c rest s h
    simp only [step, h]
    rfl
  · intro s h
    simp only [step, h, State.idle, State.setNow]

/-- What every command keeps out of a queue with room for it, every step keeps. -/
theorem step_keeps {P : State → Prop} (pending : ∀ s cs, P s → P (s.setPending cs)) (idle : ∀ s, P s → P s.idle)
    (command : ∀ c s t, P s → exec c s = .next t → P t) (hs : P s) (h : step s = .next t) : P t := by
  unfold step at h
  split at h
  · obtain rfl := Host.Outcome.next.inj h
    exact idle s hs
  · exact command _ _ t (pending s _ hs) h

end Sys2Proof.Machine
end

section
/-! PROOFS. Properties that the raising of reports does not bear on, carried through the losing of a station, the delivery of
an outcome, the verdict on a frame and the arbiter's consideration. -/

-- One theorem after another: theorems checked side by side would each hold a thread.
set_option Elab.async false

namespace Sys2Proof.Machine

variable {P Q : State → Prop} {s t : State}

/-- A happening keeps what it keeps out of reset. -/
theorem unlessInReset_keeps {f : State → State} (hs : P s) (h : s.inReset = false → P (f s)) : P (unlessInReset f s) := by
  cases hr : s.inReset with
  | true => rwa [unlessInReset_held hr]
  | false => rw [unlessInReset_running hr]; exact h hr

/-! ## Properties that reports, points, lines, entries and the attention list do not bear on -/

/-- The property stands whatever report is raised, whatever a happening makes of a point or of an INPUT line that keep their key
and their binding, and whatever becomes of some other pieces. -/
structure ReportStable (P : State → Prop) : Prop where
  raise : ∀ k body s, P s → P (raiseReport k body s)
  frame : ∀ s t, Touches [.waiting, .counts, .attention, .entries] s t → P s → P t
  point : ∀ f p s, (∀ q : Point, (f q).key = q.key) → P s → P (changePoint f p s)
  input : ∀ i f s, (∀ l : InputLine, (f l).binding = l.binding) → P s → P (changeInput i f s)

namespace ReportStable

/-- Nothing that becomes of the points and the lines bears on the property. -/
theorem of_frame (raise : ∀ k body s, P s → P (raiseReport k body s))
    (frame : ∀ s t, Touches [.waiting, .counts, .attention, .points, .lines, .entries] s t → P s → P t) :
    ReportStable P where
  raise := raise
  frame s t h := frame s t h.mono
  point f p s _ hs := by
    have placed : P (s.setPoints (replacePoint s.points (f p))) := frame s _ (setPoints_touches s _).mono hs
    have told : P (if watched p (f p) then
        raiseReport .pointChanged (pointChangedBody (f p)) (s.setPoints (replacePoint s.points (f p)))
        else s.setPoints (replacePoint s.points (f p))) := by
      split
      · exact raise _ _ _ placed
      · exact placed
    unfold Machine.changePoint
    dsimp only
    split
    · exact told
    · exact frame _ _ (notifyMirrors_touches _ _ _ _).mono told
  input i f s _ := frame _ _ (changeInput_touches s i f).mono

theorem changePoints (h : ReportStable P) (f : Point → Point) (ps : List Point) (hf : ∀ q, (f q).key = q.key) (hs : P s) :
    P (changePoints f ps s) :=
  overAll_keeps hs fun p _ _ ht => h.point f p _ hf ht

theorem publisherActive (h : ReportStable P) (a : Nat) (hs : P s) : P (publisherActive a s) := by
  unfold Machine.publisherActive
  split
  · exact h.changePoints _ _ (fun q => by split <;> rfl) hs
  · exact hs

theorem publisherGone (h : ReportStable P) (a : Nat) (hs : P s) : P (publisherGone a s) := by
  unfold Machine.publisherGone
  split
  · exact h.changePoints _ _ (fun q => by split <;> rfl) hs
  · exact hs

theorem dropTrigger (h : ReportStable P) (i : Fin 8) (k : Key) (r : DropReason) (hs : P s) : P (dropTrigger i k r s) :=
  h.raise _ _ _ (h.input i _ s (fun _ => rfl) hs)

theorem dropLostTriggers (h : ReportStable P) (a : Nat) (hs : P s) : P (dropLostTriggers a s) := by
  refine overAll_keeps hs fun i _ t ht => ?_
  split
  · split
    · split
      · exact h.dropTrigger i _ _ ht
      · exact ht
    · exact ht
  · exact ht

/-- R59: the loss consequences keep what the loss of the messages keeps. -/
theorem lossConsequences (h : ReportStable P) (lose : ∀ a u, P u → P (loseMessages a u)) (a : Nat) (hs : P s) :
    P (lossConsequences a s) := by
  have waiting := h.frame _ _ (skipWaitingSlots_touches s a).mono hs
  have attention := h.frame _ _ (removeAttention_touches (skipWaitingSlots a s) a).mono waiting
  exact h.dropLostTriggers a (h.publisherGone a (lose a _ attention))

theorem loseStation (h : ReportStable P) (lose : ∀ a u, P u → P (loseMessages a u)) (a : Nat) (x : RosterState)
    (c : LostCause) (hs : P s) : P (loseStation a x c s) :=
  h.lossConsequences lose a (h.raise _ _ _ (h.frame _ _ (setEntry_touches s a _).mono hs))

theorem takePolarity (h : ReportStable P) (a : Nat) (b : Bool) (hs : P s) : P (takePolarity a b s) := by
  unfold Machine.takePolarity
  dsimp only
  split
  · exact hs
  · exact h.raise _ _ _ (h.frame _ _ (setEntry_touches s a _).mono hs)

theorem becomeActive (h : ReportStable P) (a : Nat) (i : Identity) (b c : Bool) (hs : P s) : P (becomeActive a i b c s) :=
  h.raise _ _ _ (h.publisherActive a (h.frame _ _ (setEntry_touches s a _).mono hs))

theorem becomeHeld (h : ReportStable P) (a : Nat) (i : Identity) (r : HeldReason) (hs : P s) : P (becomeHeld a i r s) :=
  h.raise _ _ _ (h.frame _ _ (setEntry_touches s a _).mono hs)

theorem takeIdentity (h : ReportStable P) (a : Nat) (i : Identity) (hs : P s) : P (takeIdentity a i s) := by
  unfold Machine.takeIdentity
  split
  · exact h.raise _ _ _ hs
  · split
    · exact h.becomeActive _ _ _ _ hs
    · split
      · split
        · exact h.becomeActive _ _ _ _ hs
        · exact h.becomeHeld _ _ _ hs
      · split
        · exact h.becomeActive _ _ _ _ hs
        · exact h.becomeHeld _ _ _ hs

theorem countClash (h : ReportStable P) (a : Nat) (hs : P s) : P (countClash a s) := by
  have counted := h.frame _ _ (setEntry_touches s a { s.entry a with clash := min 255 ((s.entry a).clash + 1) }).mono hs
  unfold Machine.countClash
  dsimp only
  split
  · exact h.raise _ _ _ counted
  · exact counted

theorem countMiss (h : ReportStable P) (lose : ∀ a u, P u → P (loseMessages a u)) (a : Nat) (hs : P s) :
    P (countMiss a s) := by
  have counted := h.frame _ _ (setEntry_touches s a { s.entry a with miss := (s.entry a).miss + 1 }).mono hs
  unfold Machine.countMiss
  dsimp only
  split
  · exact h.loseStation lose a _ _ counted
  · exact counted

theorem workOutcome (h : ReportStable P) (lose : ∀ a u, P u → P (loseMessages a u)) (a : Nat) (o : TxnOutcome)
    (hs : P s) : P (workOutcome a o s) := by
  have missed : P (if s.stationActive a then Machine.countMiss a s else s) := by
    split
    · exact h.countMiss lose a hs
    · exact hs
  cases o with
  | answered x y z =>
    refine h.takePolarity a z ?_
    split
    · exact h.frame _ _ (setEntry_touches s a _).mono hs
    · exact hs
  | miss => exact missed
  | garbled => exact missed
  | wrong => exact missed
  | sent => exact hs
  | collision => exact hs
  | echoLost => exact hs
  | abandoned => exact hs

theorem rollOutcome (h : ReportStable P) (a : Nat) (o : TxnOutcome) (hs : P s) : P (rollOutcome a o s) := by
  unfold Machine.rollOutcome
  split
  · split
    · exact h.takePolarity _ _ (h.takeIdentity _ _ hs)
    · exact h.countClash a hs
    · exact hs
  · split
    · exact h.takePolarity _ _ hs
    · exact hs

/-- R35 step 1. -/
theorem rosterStep (h : ReportStable P) (lose : ∀ a u, P u → P (loseMessages a u)) (r : Record) (o : TxnOutcome)
    (hs : P s) : P (rosterStep r o s) := by
  unfold Machine.rosterStep
  split
  · exact hs
  · exact h.rollOutcome _ o hs
  · exact h.workOutcome lose _ o hs

theorem takePub (h : ReportStable P) (a n : Nat) (st : Byte) (v : List Byte) (hs : P s) : P (takePub a n st v s) := by
  unfold Machine.takePub
  split
  · exact hs
  · split
    · exact hs
    · split
      · exact h.point _ _ _ (fun _ => rfl) hs
      · split
        · exact h.point _ _ _ (fun _ => rfl) hs
        · exact hs

/-- R35 step 2. -/
theorem cacheStep (h : ReportStable P) (r : Record) (o : TxnOutcome) (hs : P s) : P (cacheStep r o s) := by
  unfold Machine.cacheStep
  split
  · exact h.takePub _ _ _ _ hs
  · exact hs

/-- R35 step 3. -/
theorem attentionStep (h : ReportStable P) (r : Record) (o : TxnOutcome) (hs : P s) : P (attentionStep r o s) :=
  h.frame _ _ (attentionStep_touches s r o).mono hs

/-- R35: the first three recipients of an outcome. -/
theorem deliver (h : ReportStable P) (lose : ∀ a u, P u → P (loseMessages a u)) (r : Record) (o : TxnOutcome)
    (hs : P s) : P (Machine.attentionStep r o (Machine.cacheStep r o (Machine.rosterStep r o s))) :=
  h.attentionStep r o (h.cacheStep r o (h.rosterStep lose r o hs))

end ReportStable

/-! ## Verdicts on frames (R31, R38, R164) -/

/-- What a property needs to be kept by the verdict on a frame. -/
structure VerdictStable (P : State → Prop) : Prop where
  raise : ∀ k body s, P s → P (raiseReport k body s)
  foreign : ∀ s, P s → P (activate .foreign s)
  frame : ∀ s t, Touches [.wire, .traffic] s t → P s → P t
  ends : ∀ o s r, P s → s.txn.record = some r → r.phase = .receiving → P (endRecord o s)

namespace VerdictStable

theorem sightForeign (h : VerdictStable P) (k : FrameKind) (a : Nat) (hs : P s) : P (sightForeign k a s) := by
  unfold Machine.sightForeign
  refine h.frame _ _ (setTraffic_touches _ _ _ _).mono ?_
  split
  · exact hs
  · exact h.raise _ _ _ (h.foreign _ hs)

theorem noteForeign (h : VerdictStable P) (body : List Byte) (hs : P s) : P (noteForeign body s) := by
  unfold Machine.noteForeign
  split
  · split
    · exact h.sightForeign _ _ hs
    · exact hs
  · exact hs

theorem strayFrame (h : VerdictStable P) (v : Verdict) (hs : P s) : P (strayFrame v s) := by
  have counted := h.frame _ _ (setTraffic_touches s (s.txn.stray + 1) s.txn.seenThisCycle s.txn.lastForeign).mono hs
  unfold Machine.strayFrame
  split
  · exact h.noteForeign _ counted
  · exact counted

theorem receivedVerdict (h : VerdictStable P) (v : Verdict) (hs : P s) : P (receivedVerdict v s) := by
  unfold Machine.receivedVerdict
  split
  · exact h.strayFrame v hs
  · rename_i r hr
    split
    · rename_i hp
      split
      · rename_i body inverted
        have same := (noteForeign_touches s body).same .record (by simp)
        exact h.ends _ _ r (h.noteForeign body hs) (same.trans hr) hp
      · exact h.ends _ _ r hs hr hp
    · split
      · exact h.strayFrame v hs
      · exact hs
    · exact h.strayFrame v hs

theorem giveVerdict (h : VerdictStable P) (f : FrameInProgress) (v : Verdict) (hs : P s) : P (giveVerdict f v s) := by
  unfold Machine.giveVerdict
  split
  · exact h.frame _ _ (noteEcho_touches v s).mono hs
  · exact h.receivedVerdict v hs

theorem closeFrame (h : VerdictStable P) (f : FrameInProgress) (v : Verdict) (hs : P s) : P (closeFrame f v s) := by
  unfold Machine.closeFrame
  refine h.giveVerdict f v (h.frame _ _ (setWire_touches s _ ?_ ?_).mono hs) <;> split <;> rfl

theorem reach (h : VerdictStable P) (n : Nat) (hs : P s) : P (s.reach n) := h.frame _ _ (reach_touches s n).mono hs

/-- R164: the end of a frame's reading. -/
theorem segmentFrameReceived (h : VerdictStable P) {xs : List Symbol} (he : exec (.segmentFrameReceived xs) s = .next t)
    (hs : P s) : P t := by
  obtain rfl := Host.Outcome.next.inj he
  refine unlessInReset_keeps hs fun _ => ?_
  split
  · exact h.closeFrame _ _ (h.reach _ hs)
  · exact hs

/-- R162: a start delimiter that was not completed. -/
theorem startDelimiterTimeout (h : VerdictStable P) (he : exec .startDelimiterTimeout s = .next t) (hs : P s) : P t := by
  obtain rfl := Host.Outcome.next.inj he
  refine unlessInReset_keeps hs fun _ => ?_
  split
  · split
    · exact h.closeFrame _ _ (h.reach _ hs)
    · exact hs
  · exact hs

/-- R160: the line falls quiet. -/
theorem lineQuiet (h : VerdictStable P) (he : exec .lineQuiet s = .next t) (hs : P s) : P t := by
  obtain rfl := Host.Outcome.next.inj he
  have quiet := h.frame _ _ (fallQuiet_touches _).mono (h.reach (s.seg.lastTransition + s.bits Config.quietBits) hs)
  refine unlessInReset_keeps hs fun _ => ?_
  split
  · dsimp only
    split
    · exact h.giveVerdict _ _ quiet
    · exact quiet
  · exact hs

end VerdictStable

/-! ## The arbiter's consideration (R93-R98) -/

/-- A consideration that starts nothing leaves one property, and one that starts something the other. -/
def GapResult.Yields (P Q : State → Prop) : GapResult → Prop
  | .passed s => P s
  | .started s => Q s

theorem GapResult.Yields.orNext {r : GapResult} {f : State → GapResult} (h : r.Yields P Q)
    (hf : ∀ u, P u → (f u).Yields P Q) : (r.orNext f).Yields P Q := by
  cases r with
  | passed u => exact hf u h
  | started u => exact h

theorem GapResult.Yields.state {r : GapResult} (h : r.Yields P Q) (pq : ∀ u, P u → Q u) : Q r.state := by
  cases r with
  | passed u => exact pq u h
  | started u => exact h

/-- R95, R103: the message offered in a class is held; it is the one in flight, with no attempt on the line, or none is in
flight. -/
theorem offeredMessage_some {c : MessageClass} {m : Message} (h : offeredMessage c s = some m) :
    m ∈ s.outbound ∧ m.cls = c ∧ ((m.state = .inFlight ∧ m.onLine = false) ∨ ∀ x ∈ s.outbound, x.state ≠ .inFlight) := by
  unfold offeredMessage at h
  split at h
  · rename_i x hx
    split at h
    · rename_i hc
      cases h
      exact ⟨List.mem_of_find?_eq_some hx, hc.1, .inl ⟨by simpa using List.find?_some hx, by simpa using hc.2⟩⟩
    · cases h
  · rename_i hx
    have hm := List.find?_some h
    simp only [Bool.and_eq_true, beq_iff_eq] at hm
    exact ⟨List.mem_of_find?_eq_some h, hm.2, .inr (by simpa using hx)⟩

/-- What a property needs to be kept by the arbiter's consideration: `P` while nothing has started, `Q` once something
has. -/
structure GapStable (P Q : State → Prop) : Prop where
  drop : ∀ i k s, P s → P (dropTrigger i k .absent s)
  trigger : ∀ i l k s, P s → s.lines.records[i] = .input l → l.binding = some k → s.stationActive k.address = true →
    Q (startTrigger i k s)
  send : ∀ c m s, P s → offeredMessage c s = some m → Q (startSend m s)
  fetch : ∀ a rest s, P s → s.attention = a :: rest → s.canReserve = true → Q (startFetch a rest s)
  roll : ∀ a s, P s → s.probeCandidate = some a → Q (startRoll a s)

namespace GapStable

theorem considerTrigger (h : GapStable P Q) (i : Fin 8) (hs : P s) : (considerTrigger i s).Yields P Q := by
  unfold Machine.considerTrigger
  split
  · rename_i l hl
    split
    · rename_i k hk
      split
      · exact hs
      · split
        · exact h.drop i k s hs
        · rename_i ha
          split
          · split
            · exact h.trigger i l k s hs hl hk (by simpa using ha)
            · exact hs
          · exact hs
    · exact hs
  · exact hs

theorem considerTriggers (h : GapStable P Q) (hs : P s) : (considerTriggers s).Yields P Q := by
  have each : ∀ (xs : List (Fin 8)) (r : GapResult), r.Yields P Q →
      (xs.foldl (fun r i => r.orNext (Machine.considerTrigger i)) r).Yields P Q := by
    intro xs
    induction xs with
    | nil => exact fun r hr => hr
    | cons i xs ih => exact fun r hr => ih _ (hr.orNext fun u hu => h.considerTrigger i hu)
  exact each allLines (.passed s) hs

theorem considerMessage (h : GapStable P Q) (c : MessageClass) (hs : P s) : (considerMessage c s).Yields P Q := by
  unfold Machine.considerMessage
  split
  · rename_i m hm
    split
    · exact h.send c m s hs hm
    · exact hs
  · exact hs

theorem considerFetch (h : GapStable P Q) (hs : P s) : (considerFetch s).Yields P Q := by
  unfold Machine.considerFetch
  split
  · rename_i a rest ha
    split
    · rename_i hc
      exact h.fetch a rest s hs ha (by simp_all)
    · exact hs
  · exact hs

theorem considerAlternating (h : GapStable P Q) (hs : P s) : (considerAlternating s).Yields P Q := by
  unfold Machine.considerAlternating
  split
  · exact (h.considerFetch hs).orNext fun u hu => h.considerMessage .normal hu
  · exact (h.considerMessage .normal hs).orNext fun u hu => h.considerFetch hu

theorem considerRoll (h : GapStable P Q) (hs : P s) : (considerRoll s).Yields P Q := by
  unfold Machine.considerRoll
  split
  · rename_i a ha
    split
    · exact h.roll a s hs ha
    · exact hs
  · exact hs

/-- R93: the whole consideration. -/
theorem consider (h : GapStable P Q) (hs : P s) : (consider s).Yields P Q :=
  (((h.considerTriggers hs).orNext fun _ hu => h.considerMessage .urgent hu).orNext
    fun _ hu => h.considerAlternating hu).orNext fun _ hu => h.considerRoll hu

/-- GAP_CONSIDERATION: in an opportunity the arbiter considers; otherwise nothing happens. -/
theorem gapConsideration (h : GapStable P Q) (pq : ∀ u, P u → Q u) (he : exec .gapConsideration s = .next t)
    (opp : s.inReset = false → s.opportunity = true → P s) (hs : Q s) : Q t := by
  obtain rfl := Host.Outcome.next.inj he
  refine unlessInReset_keeps hs fun hr => ?_
  split
  · rename_i ho
    exact (h.consider (opp hr ho)).state pq
  · exact hs

end GapStable

/-- R90: an opportunity comes in RUN, with no record in flight. -/
theorem opportunity_run_idle (h : s.opportunity = true) : s.sched.mode = .run ∧ s.txn.record = none := by
  simp only [State.opportunity, Bool.and_eq_true, beq_iff_eq] at h
  obtain ⟨⟨⟨hm, hp⟩, -⟩, -⟩ := h
  exact ⟨hm, (s.linePermits_iff.1 hp).1⟩

/-! ## Properties that bear on the report queue, the outbound queue, the record and the conditions alone -/

/-- The pieces that hold no part of the report queue, the outbound queue, the record, the conditions and the babble fault. -/
def restPieces : List Piece :=
  [.mode, .cycle, .active, .shadow, .params, .waiting, .presented, .counts, .traffic, .entries, .pointer, .points, .gap,
    .attention, .lines, .transmitter, .wire, .link]

/-- The property stands whatever report is raised, whichever of the conditions that follow no count and no fault becomes active
or inactive, and whatever becomes of the other pieces. -/
structure QueueStable (P : State → Prop) : Prop where
  raise : ∀ k body s, P s → P (raiseReport k body s)
  frame : ∀ s t, Touches restPieces s t → P s → P t
  flag : ∀ n s, n = .noEcho ∨ n = .foreign ∨ n = .hostSilent → P s → P (activate n s) ∧ P (deactivate n s)
  late : ∀ s, P s → P (latchCycleLate s)

namespace QueueStable

theorem reports (h : QueueStable P) : ReportStable P :=
  .of_frame h.raise fun s t ht => h.frame s t (ht.mono (by simp [restPieces]))

theorem evaluateForeign (h : QueueStable P) (hs : P s) : P (evaluateForeign s) := by
  unfold Machine.evaluateForeign
  split
  · split
    · exact (h.flag .foreign s (by simp) hs).2
    · exact hs
  · exact hs

/-- R5. -/
theorem startCycle (h : QueueStable P) (hs : P s) : P (startCycle s) := by
  unfold Machine.startCycle
  extract_lets roster pointed started gap calmed txn unseen sched
  have first : P pointed := h.frame s _ ⟨le_rfl, rfl, fun p hp => by cases p <;> simp_all [Piece.same, restPieces, pointed, roster]⟩ hs
  have sourced : P started := h.reports.changePoints _ _ (fun _ => rfl) first
  exact h.frame started _ ⟨le_rfl, rfl, fun p hp => by
    cases p <;> simp_all [Piece.same, restPieces, unseen, calmed, txn, gap, sched]⟩ sourced

/-- R6. -/
theorem stopCycle (h : QueueStable P) (hs : P s) : P (stopCycle s) := by
  unfold Machine.stopCycle
  extract_lets sched stopped offline
  have stops : P stopped :=
    h.frame s _ ⟨le_rfl, rfl, fun p hp => by cases p <;> simp_all [Piece.same, restPieces, stopped, sched]⟩ hs
  exact h.evaluateForeign (h.reports.changePoints _ _ (fun _ => rfl) stops)

theorem dropMark (h : QueueStable P) (hs : P s) : P (dropMark s) := by
  unfold Machine.dropMark
  split
  · exact h.raise _ _ _ (h.late _ (h.frame s _
      ⟨le_rfl, rfl, fun p hp => by cases p <;> simp_all [Piece.same, restPieces]⟩ hs))
  · exact hs

theorem carryOutSwap (h : QueueStable P) (hs : P s) : P (carryOutSwap s) := by
  unfold Machine.carryOutSwap
  split
  · exact h.raise _ _ _ (h.frame s _
      ⟨le_rfl, rfl, fun p hp => by cases p <;> simp_all [Piece.same, restPieces, exchangeBanks]⟩ hs)
  · exact hs

theorem expireForeignByCycle (h : QueueStable P) (hs : P s) : P (expireForeignByCycle s) := by
  unfold Machine.expireForeignByCycle
  refine h.frame _ _ ((setTraffic_touches _ _ _ _).mono (by simp [restPieces])) ?_
  split
  · exact (h.flag .foreign s (by simp) hs).2
  · exact hs

theorem reportSkips (h : QueueStable P) (n : Word32) (hs : P s) : P (reportSkips n s) := by
  unfold Machine.reportSkips
  extract_lets reported
  have told : P reported := by
    unfold reported
    split
    · exact h.raise _ _ _ hs
    · exact hs
  exact h.frame reported _ ⟨le_rfl, rfl, fun p hp => by cases p <;> simp_all [Piece.same, restPieces]⟩ told

/-- R17. -/
theorem crossBoundary (h : QueueStable P) (hs : P s) : P (crossBoundary s) := by
  have skipped := h.frame _ _ ((skipOverruns_touches (overrunLate s)).mono (by simp [restPieces]))
    (h.frame _ _ ((overrunLate_touches s).mono (by simp [restPieces])) hs)
  unfold Machine.crossBoundary
  extract_lets ended dropped opened aged gap calmed expired reported
  have cycle : P opened :=
    h.frame _ _ ((openCycle_touches _).mono (by simp [restPieces])) (h.carryOutSwap (h.dropMark skipped))
  have ages : P aged := h.reports.changePoints _ _ (fun _ => rfl) cycle
  have calms : P calmed := h.frame _ _ ((setGap_touches _ _).mono (by simp [restPieces])) ages
  exact h.frame reported _ ⟨le_rfl, rfl, fun p hp => by cases p <;> simp_all [Piece.same, restPieces]⟩
    (h.reportSkips ended (h.expireForeignByCycle calms))

theorem discardSwap (h : QueueStable P) (hs : P s) : P (discardSwap s) := by
  unfold Machine.discardSwap
  split
  · exact h.raise _ _ _ (h.frame s _
      ⟨le_rfl, rfl, fun p hp => by cases p <;> simp_all [Piece.same, restPieces]⟩ hs)
  · exact hs

/-- R7: what the ABORTED outcomes keep, the end of STOPPING keeps. -/
theorem endStopping (h : QueueStable P) (abort : ∀ u, P u → P (abortMessages u)) (hs : P s) : P (endStopping s) := by
  unfold Machine.endStopping
  extract_lets sched opened swapped settled unattended aborted untriggered evaluated
  have opens : P opened :=
    h.frame s _ ⟨le_rfl, rfl, fun p hp => by cases p <;> simp_all [Piece.same, restPieces, opened, sched]⟩ hs
  have roster : P settled :=
    h.frame _ _ ((settleRoster_touches _).mono (by simp [restPieces])) (h.discardSwap opens)
  have attention : P unattended := h.frame _ _ ((setAttention_touches _ []).mono (by simp [restPieces])) roster
  exact h.raise _ _ _ (h.evaluateForeign
    (h.frame _ _ ((clearTriggers_touches _).mono (by simp [restPieces])) (abort _ attention)))

theorem measureMark (h : QueueStable P) (o : Origin) (hs : P s) : P (measureMark o s) := by
  unfold Machine.measureMark
  split
  · dsimp only
    split
    · exact h.raise _ _ _ (h.late s hs)
    · exact hs
  · exact hs

theorem changeFiltered (h : QueueStable P) (i : Fin 8) (l : InputLine) (v : Level) (hs : P s) :
    P (changeFiltered i l v s) := by
  have put : ∀ r, P (putLine i r s) := fun r => h.frame s _ ((putLine_touches s i r).mono (by simp [restPieces])) hs
  unfold Machine.changeFiltered
  dsimp only
  split
  · refine h.frame _ _ ((changeInput_touches _ i _).mono (by simp [restPieces])) ?_
    split
    · exact h.raise _ _ _ (put _)
    · exact put _
  · exact put _

theorem seePin (h : QueueStable P) (i : Fin 8) (v : Level) (hs : P s) : P (seePin i v s) := by
  have put : ∀ r, P (putLine i r s) := fun r => h.frame s _ ((putLine_touches s i r).mono (by simp [restPieces])) hs
  unfold Machine.seePin
  split
  · split
    · exact put _
    · split
      · exact h.changeFiltered i _ v hs
      · exact put _
  · exact hs

theorem takeLasting (h : QueueStable P) (i : Fin 8) (hs : P s) : P (takeLasting i s) := by
  unfold Machine.takeLasting
  split
  · split
    · split
      · exact h.changeFiltered i _ _ hs
      · exact hs
    · exact hs
  · exact hs

/-- R146: the level at a pin changes. -/
theorem localLinePinChange (h : QueueStable P) {i : Fin 8} {v : Level} (he : exec (.localLinePinChange i v) s = .next t)
    (hs : P s) : P t := by
  obtain rfl := Host.Outcome.next.inj he
  split
  · exact hs
  · exact unlessInReset_keeps (h.frame _ _ ((setPin_touches i v _).mono (by simp [restPieces]))
      (unlessInReset_keeps hs fun _ => h.takeLasting i hs)) fun _ => h.seePin i v
        (h.frame _ _ ((setPin_touches i v _).mono (by simp [restPieces]))
          (unlessInReset_keeps hs fun _ => h.takeLasting i hs))

/-- R146: the filter time of a line ends. -/
theorem inputFilterExpired (h : QueueStable P) {i : Fin 8} (he : exec (.inputFilterExpired i) s = .next t) (hs : P s) :
    P t := by
  obtain rfl := Host.Outcome.next.inj he
  refine unlessInReset_keeps hs fun _ => ?_
  split
  · split
    · exact h.changeFiltered i _ _ (h.frame _ _ ((reach_touches s _).mono (by simp)) hs)
    · exact hs
  · exact hs

/-- R176, R184: the judging of a frame bears on the link and on HOST_SILENT. -/
theorem judgeFrame (h : QueueStable P) (bs : List Byte) (hs : P s) : P (judgeFrame bs s) := by
  have link : ∀ (u : State) l, P u → P (u.setLink l) := fun u l =>
    h.frame u _ ((setLink_touches u l).mono (by simp [restPieces]))
  unfold Machine.judgeFrame
  dsimp only
  split
  · exact link _ _ (link s _ hs)
  · split
    · exact link _ _ (link s _ hs)
    · exact h.frame _ _ ((enterBuffer_touches _ _).mono (by simp [restPieces]))
        (h.flag .hostSilent _ (by simp) (link _ _ (link s _ hs))).2

theorem takeByte (h : QueueStable P) (b : Byte) (hs : P s) : P (takeByte b s) := by
  have link : ∀ (u : State) l, P u → P (u.setLink l) := fun u l =>
    h.frame u _ ((setLink_touches u l).mono (by simp [restPieces]))
  unfold Machine.takeByte
  split
  · exact link s _ hs
  · unfold assembleByte
    split
    · split
      · exact link s _ hs
      · exact link s _ hs
    · exact link s _ hs
  · exact link _ _ (h.judgeFrame _ hs)

end QueueStable

/-! ## Every command on such a property -/

/-- What a property that bears on the queues, the record and the conditions needs, beyond what `QueueStable` asks, to be kept by
every command. -/
structure CommandStable (P : State → Prop) : Prop extends QueueStable P where
  hands : ∀ r s, P s → s.txn.record = none → r.origin ≠ .fetch → P (s.setTxn { s.txn with record := some r })
  goesOn : ∀ r r' s, P s → s.txn.record = some r → r'.origin = r.origin → P (s.setTxn { s.txn with record := some r' })
  ends : ∀ o s, P s → P (endRecord o s)
  sends : ∀ c m s, P s → s.txn.record = none → offeredMessage c s = some m → P (changeMessage m.tag Message.attempted s)
  fetches : ∀ r s, P s → s.txn.record = none → r.origin = .fetch → s.canReserve = true →
    P ((takeReservation s).setTxn { s.txn with record := some r })
  loses : ∀ a s, P s → P (loseMessages a s)
  aborts : ∀ s, P s → P (abortMessages s)
  accepts : ∀ m s, P s → m.state = .queued → s.message m.tag = none → s.outbound.length < Config.messageCapacity →
    s.canReserve = true → P (acceptMessage m s)
  cancels : ∀ m s, P s → m ∈ s.outbound → P (settleMessage m .cancelled [] s)
  acks : ∀ n gone kept s, P s → splitAfter n s.reports.sent = some (gone, kept) →
    P (overflowIfDue (s.setReports { s.reports with sent := kept }))
  resends : ∀ s, P s → P (ownResendReports s).1
  levels : ∀ ls s, P s → P (s.setReports { s.reports with levels := ls })
  clears : ∀ n s, P s → P (clearLatch n s)
  offers : ∀ s, P s → P (takeOffer s)
  babbles : ∀ s, P s → P (activate .babble (s.setSeg { s.seg with babbleFault := true }))
  recovers : ∀ s, P s → P (deactivate .babble (s.setSeg { s.seg with babbleFault := false }))
  holds : ∀ s, P s → P (holdInReset s)
  resets : ∀ c r s, P (resetPart c r s)

namespace CommandStable

theorem frame_of (h : CommandStable P) {ps : List Piece} (ht : Touches ps s t) (hs : P s)
    (hp : ps ⊆ restPieces := by simp [restPieces]) : P t :=
  h.frame s t (ht.mono hp) hs

theorem verdicts (h : CommandStable P) : VerdictStable P where
  raise := h.raise
  foreign s hs := (h.flag .foreign s (by simp) hs).1
  frame _ _ ht hs := h.frame_of ht hs
  ends o s _ hs _ _ := h.ends o s hs

theorem afterResponse (h : CommandStable P) (hs : P s) : P (afterResponse s) := by
  unfold Machine.afterResponse
  split
  · exact h.resets _ _ _
  · split
    · exact h.frame_of (setLink_touches s _) hs
    · exact hs

theorem startWaiting (h : CommandStable P) (hs : P s) : P (startWaiting s) :=
  h.frame_of (startWaiting_touches s) hs

theorem finishFrame (h : CommandStable P) (hs : P s) : P (finishFrame s) := by
  unfold Machine.finishFrame
  split
  · exact hs
  · rename_i f _
    have free := h.frame_of (setLink_touches _ { (s.reach (s.frameEnd f)).link with sending := none })
      (h.frame_of (reach_touches s (s.frameEnd f)) hs)
    dsimp only
    refine h.startWaiting ?_
    split
    · exact h.afterResponse free
    · exact free

theorem abandonRecord (h : CommandStable P) (hs : P s) : P (abandonRecord s) := by
  unfold Machine.abandonRecord
  split
  · exact hs
  · rename_i r hr
    split
    · exact h.goesOn r _ s hs hr rfl
    · exact h.ends _ _ hs

theorem setPhase (h : CommandStable P) {r : Record} (p : Phase) (hr : s.txn.record = some r) (hs : P s) : P (setPhase r p s) :=
  h.goesOn r _ s hs hr rfl

theorem leaveIdle (h : CommandStable P) {r : Record} (hr : s.txn.record = some r) (hs : P s) : P (leaveIdle r s) := by
  have wire : P ((Machine.setPhase r (.sending s.now) s).setSeg
      { s.seg with transmitter := .sending r.body s.now, echo := none }) :=
    h.frame (Machine.setPhase r (.sending s.now) s) _
      ⟨le_rfl, rfl, fun p hp => by cases p <;> simp_all [Piece.same, restPieces, Machine.setPhase]⟩ (h.setPhase _ hr hs)
  exact h.measureMark _ wire

theorem leaveSending (h : CommandStable P) {r : Record} (v : EchoVerdict) (n : Nat) (hr : s.txn.record = some r) (hs : P s) :
    P (leaveSending r v n s) := by
  unfold Machine.leaveSending
  split
  · exact h.ends _ _ hs
  · split
    · split
      · exact h.ends _ _ hs
      · exact h.setPhase _ hr hs
    · exact h.ends _ _ hs
    · exact h.ends _ _ hs

theorem followEcho (h : CommandStable P) (v : EchoVerdict) (hs : P s) : P (followEcho v s) := by
  cases v with
  | sound => exact (h.flag .noEcho s (by simp) hs).2
  | unsound => exact hs
  | noEcho => exact (h.flag .noEcho s (by simp) hs).1

theorem hearTransition (h : CommandStable P) (hs : P s) : P (hearTransition s) := by
  unfold Machine.hearTransition
  split
  · rename_i r hr
    split
    · split
      · exact h.setPhase _ hr hs
      · exact hs
    · exact hs
  · exact hs

/-- R93: the arbiter's consideration starts from an idle transaction unit. -/
theorem gap (h : CommandStable P) : GapStable (fun u => P u ∧ u.txn.record = none) P where
  drop i k s hs := ⟨h.reports.dropTrigger i k _ hs.1, ((dropTrigger_touches s i k .absent).same .record (by simp)).trans hs.2⟩
  trigger i _ k s hs _ _ _ := by
    have record := (changeInput_touches s i fun l => { l with cueOnLine := true }).same .record (by simp)
    exact h.hands _ _ (h.frame_of (changeInput_touches s i _) hs.1) (record.trans hs.2) (by simp)
  send c m s hs hm := h.hands _ _ (h.frame_of (setGap_touches _ _) (h.sends c m s hs.1 hs.2 hm)) hs.2 (by simp)
  fetch a rest s hs _ hc :=
    h.frame ((takeReservation s).setTxn { s.txn with
        record := some ⟨.fetch, .fetch, a, fetchBody a, some (.note a), .waitingLine s.now, false⟩ }) _
      ⟨le_rfl, rfl, fun p hp => by cases p <;> simp_all [Piece.same, restPieces, startFetch, handOver, takeReservation]⟩
      (h.fetches _ s hs.1 hs.2 rfl hc)
  roll a s hs _ :=
    h.hands _ _ (h.frame s _ ⟨le_rfl, rfl, fun p hp => by cases p <;> simp_all [Piece.same, restPieces]⟩ hs.1) hs.2 (by simp)

/-! ### The owners of the requests -/

theorem barEntry (h : CommandStable P) (a : Nat) (hs : P s) : P (barEntry a s) := by
  unfold Machine.barEntry
  split
  · exact h.reports.loseStation h.loses a _ _ hs
  · exact h.frame_of (setEntry_touches s a _) hs

theorem admitEntry (h : CommandStable P) (a : Nat) (hs : P s) : P (admitEntry a s).1 := by
  unfold Machine.admitEntry
  split
  · exact h.reports.becomeActive _ _ _ _ (h.frame_of (setEntry_touches s a _) hs)
  · exact hs

theorem forAddress {act : Nat → State → State × Reply} (h : ∀ a u, P u → P (act a u).1) (p : List Byte) (hs : P s) : P (forAddress p act s).1 := by
  unfold Machine.forAddress
  split
  · exact h _ s hs
  · exact hs

theorem ownSend (h : CommandStable P) (p : List Byte) (hs : P s) : P (ownSend p s).1 := by
  unfold Machine.ownSend
  split
  · exact hs
  · rename_i m hm
    have queued : m.state = .queued := by
      unfold messageOf at hm
      split at hm
      · cases hm
      · dsimp only at hm
        split at hm
        · cases hm
          rfl
        · cases hm
    split
    · exact hs
    · split
      · exact hs
      · rename_i free
        split
        · exact hs
        · rename_i room
          split
          · exact hs
          · rename_i reserve
            exact h.accepts m s hs queued free (Nat.lt_of_not_le room) (by simpa using reserve)

theorem ownCancel (h : CommandStable P) (p : List Byte) (hs : P s) : P (ownCancel p s).1 := by
  unfold Machine.ownCancel
  split
  · exact hs
  · rename_i m hm
    split
    · exact h.cancels m s hs (message_some hm).2
    · exact hs

theorem ownAckReports (h : CommandStable P) (p : List Byte) (hs : P s) : P (ownAckReports p s).1 := by
  unfold Machine.ownAckReports
  split
  · exact hs
  · rename_i gone kept hk
    exact h.acks _ gone kept s hs hk

theorem ownSetLevel (h : CommandStable P) (p : List Byte) (hs : P s) : P (ownSetLevel p s).1 := by
  unfold Machine.ownSetLevel
  split
  · exact hs
  · split
    · exact h.levels _ s hs
    · exact hs

theorem ownClearConditions (h : CommandStable P) (p : List Byte) (hs : P s) : P (ownClearConditions p s).1 := by
  unfold Machine.ownClearConditions
  split
  · exact hs
  · exact overAll_keeps hs fun n _ u hu => h.clears n u hu

theorem ownerOf (h : CommandStable P) (r : RequestName) (p : List Byte) (hs : P s) : P (ownerOf r p s).1 := by
  by_cases rest : ownerPieces r ⊆ restPieces
  · exact h.frame_of (ownerOf_touches r p s) hs rest
  · cases r
    case start => exact h.startCycle hs
    case stop => exact h.stopCycle hs
    case admitStation => exact forAddress (fun a u hu => h.admitEntry a hu) p hs
    case bar => exact forAddress (act := fun a u => accept (Machine.barEntry a u)) (fun a u hu => h.barEntry a hu) p hs
    case send => exact h.ownSend p hs
    case cancel => exact h.ownCancel p hs
    case ackReports => exact h.ownAckReports p hs
    case resendReports => exact h.resends s hs
    case setLevel => exact h.ownSetLevel p hs
    case clearConditions => exact h.ownClearConditions p hs
    all_goals exact absurd (by simp [ownerPieces, restPieces]) rest

/-! ### Every command -/

theorem takeFrame (h : CommandStable P) {f : RequestFrame} {act : State → State × Reply}
    (perform : ∀ u, u.inReset = false → P u → P (act u).1) (hs : P s) : P (takeFrame f act s) :=
  takeFrame_keeps (fun u l hu => h.frame_of (setLink_touches u l) hu) (fun u hu => (h.flag .hostSilent u (by simp) hu).2)
    perform hs

theorem command (h : CommandStable P) (c : Instr) (s t : State) (hs : P s) (he : exec c s = .next t) : P t := by
  obtain ⟨ps, v⟩ := commandView c
  by_cases rest : ps ⊆ restPieces
  · exact h.frame_of (exec_touches v he) hs rest
  cases v
  case request r num p =>
    rw [exec_request] at he
    cases he
    exact takeRequest_keeps (fun u l hu => h.frame_of (setLink_touches u l) hu)
      (fun u hu => (h.flag .hostSilent u (by simp) hu).2) (fun u _ _ _ hu => h.ownerOf r p hu) hs
  case segmentFrameReceived xs => exact h.verdicts.segmentFrameReceived he hs
  case startDelimiterTimeout => exact h.verdicts.startDelimiterTimeout he hs
  case lineQuiet => exact h.verdicts.lineQuiet he hs
  case localLinePinChange i v => exact h.localLinePinChange he hs
  case inputFilterExpired i => exact h.inputFilterExpired he hs
  case gapConsideration =>
    exact h.gap.gapConsideration (fun _ hu => hu.1) he (fun _ ho => ⟨hs, (opportunity_run_idle ho).2⟩) hs
  all_goals obtain rfl := Host.Outcome.next.inj he
  case resetPinAsserted => exact h.holds s hs
  case hardReset cause => exact h.resets _ _ s
  case unknownRequest code num p =>
    split
    · exact hs
    · exact h.takeFrame (fun _ _ hu => hu) hs
  case linkByteReceived b => exact unlessInReset_keeps hs fun _ => h.takeByte b hs
  all_goals refine unlessInReset_keeps hs fun _ => ?_
  case linkFrameReceived =>
    split
    · exact h.judgeFrame _ hs
    · exact hs
  case reportTaken =>
    split
    · exact h.offers s hs
    · exact hs
  case linkFrameSent => exact h.finishFrame hs
  case linkRateChange =>
    split
    · exact h.finishFrame hs
    · exact hs
  case softReset =>
    split
    · exact h.finishFrame hs
    · exact hs
  case hostSilentTimeout =>
    split
    · exact h.frame_of (forceOutputsSafe_touches _)
        (h.flag .hostSilent _ (by simp) (h.frame_of (reach_touches s _) hs)).1
    · exact hs
  case boundary =>
    split
    · exact h.crossBoundary (h.frame_of (reach_touches s _) hs)
    · exact hs
  case markStart =>
    split
    · rename_i hc
      exact h.hands _ _ (h.frame s _ ⟨le_rfl, rfl, fun p hp => by cases p <;> simp_all [Piece.same, restPieces]⟩ hs)
        (s.linePermits_iff.1 hc.2.2).1 (by simp)
    · exact hs
  case slotStart =>
    split
    · split
      · rename_i hc
        exact h.hands _ _ (h.frame s _ ⟨le_rfl, rfl, fun p hp => by cases p <;> simp_all [Piece.same, restPieces]⟩ hs)
          (s.linePermits_iff.1 hc.2.2.1).1 (by simp)
      · exact hs
    · exact hs
  case stoppingEnd =>
    split
    · exact h.endStopping h.aborts hs
    · exact hs
  case transmitStart =>
    split
    · rename_i r hr
      split
      · split
        · exact h.leaveIdle hr (h.frame_of (reach_touches s _) hs)
        · exact hs
      · exact hs
    · exact hs
  case waitingLineTimeout =>
    split
    · split
      · exact h.ends _ _ (h.frame_of (reach_touches s _) hs)
      · exact hs
    · exact hs
  case answerWindowExpired =>
    split
    · split
      · exact h.ends _ _ (h.frame_of (reach_touches s _) hs)
      · exact hs
    · exact hs
  case echoVerdict =>
    split
    · rename_i r _ hr
      refine h.leaveSending _ _ ?_ (h.followEcho _ (h.frame_of (returnToIdle_touches _ _ _) (h.frame_of (reach_touches s _) hs)))
      exact ((followEcho_touches _ _).same .record (by simp)).trans hr
    · exact hs
  case firstTransition =>
    have seen := h.frame_of (seeTransition_touches s) hs
    split
    · exact h.hearTransition (h.frame_of (beginFrame_touches _) seen)
    · exact seen
  case foreignTimeExpiry =>
    split
    · split
      · exact (h.flag .foreign _ (by simp) (h.frame_of (reach_touches s _) hs)).2
      · exact hs
    · exact hs
  case babbleDetected =>
    split
    · exact h.abandonRecord (h.raise _ _ _ (h.babbles _ (h.frame_of (reach_touches s _) hs)))
    · exact hs
  case babbleEnd =>
    split
    · exact h.raise _ _ _ (h.recovers _ (h.frame_of (reach_touches s _) hs))
    · exact hs
  all_goals exact absurd (by simp [restPieces]) rest

end CommandStable

end Sys2Proof.Machine
end

section
/-! PROOFS. Chapter 7, the places of the report queue (R124, R130). -/

-- One theorem after another: theorems checked side by side would each hold a thread.
set_option Elab.async false

namespace Sys2Proof.Machine

variable {s t : State}

/-! ## How many places the operations of the queue use -/

/-- Removing the newest item with a property from a list that has one leaves one item less. -/
theorem length_eraseNewest {α : Type} {p : α → Bool} {xs : List α} (h : ∃ x ∈ xs, p x = true) :
    (eraseNewest p xs).length + 1 = xs.length := by
  obtain ⟨x, hx, hp⟩ := h
  have := List.length_pos_of_mem hx
  have erased := List.length_eraseP_of_mem (List.mem_reverse.2 hx) hp
  simp only [eraseNewest, List.length_reverse] at erased ⊢
  omega

/-- R126: the level of the lowest candidates is that of a candidate. -/
theorem lowestCandidate_some {l n : Nat} {rs : List Report} (h : lowestCandidate l rs = some n) :
    ∃ e ∈ rs, displaceable l e = true ∧ e.level = n := by
  obtain ⟨e, he, rfl⟩ := List.mem_map.1 (List.min?_mem h)
  exact ⟨e, (List.mem_filter.1 he).1, (List.mem_filter.1 he).2, rfl⟩

/-- R125, R126: raising a report keeps SENT entries and reservations, and never takes a 33rd place. -/
theorem raiseReport_places (k : ReportKind) (body : List Byte) (s : State) (h : s.reports.places ≤ 32) :
    (raiseReport k body s).reports.places ≤ 32 ∧ (raiseReport k body s).reports.sent = s.reports.sent ∧
      (raiseReport k body s).reports.reservations = s.reports.reservations := by
  have raised := (raiseReport_cacheOnly k body s).raised
  refine ⟨?_, raised.sent, raised.reservations⟩
  unfold ReportQueue.places at h ⊢
  rw [raised.sent, raised.reservations]
  unfold raiseReport
  split
  · exact h
  · split
    · simpa [rewriteReport] using h
    · by_cases room : s.reports.places < 32
      · unfold ReportQueue.places at room
        rw [postReport_room (by exact room)]
        simp
        omega
      · obtain ⟨us, he, hu⟩ := postReport_full (r := { kind := k, level := s.reports.levelOf k, body := body
                                                       reserved := false }) (Nat.le_of_not_lt room)
        rw [he, activate_eq]
        rcases hu with rfl | ⟨l, hl, rfl⟩
        · exact h
        · obtain ⟨e, hm, hd, hn⟩ := lowestCandidate_some hl
          have := length_eraseNewest (p := fun e => displaceable (s.reports.levelOf k) e && e.level == l)
            ⟨e, hm, by simp [hd, hn]⟩
          simp only [State.setConds_reports, State.setReports_reports, List.length_append, List.length_singleton]
          omega

/-- R127: a waiting OVERFLOW takes a place only where one is free. -/
theorem overflowIfDue_places (s : State) (h : s.reports.places ≤ 32) :
    (overflowIfDue s).reports.places ≤ 32 ∧ (overflowIfDue s).reports.sent = s.reports.sent ∧
      (overflowIfDue s).reports.reservations = s.reports.reservations := by
  by_cases lost : s.reports.lossTally = 0
  · rw [overflowIfDue_none lost]
    exact ⟨h, rfl, rfl⟩
  · by_cases room : s.reports.places < 32
    · rw [overflowIfDue_room (by omega) room]
      refine ⟨?_, rfl, rfl⟩
      simp only [ReportQueue.places, List.length_append, List.length_singleton] at room ⊢
      omega
    · have : s.canReserve = false := decide_eq_false room
      have same : overflowIfDue s = s := by simp [overflowIfDue, lost, this]
      rw [same]
      exact ⟨h, rfl, rfl⟩

/-! ## The law, and what it depends on -/

theorem fetchInFlight_congr {ps : List Piece} (h : Touches ps s t) (hc : Piece.record ∉ ps := by simp) :
    t.fetchInFlight = s.fetchInFlight := by
  have record := h.same _ hc
  simp only [Piece.same] at record
  unfold State.fetchInFlight
  rw [record]

theorem State.ReportPlacesLaw.congr {ps : List Piece} (h : Touches ps s t) (hs : s.ReportPlacesLaw)
    (hr : Piece.inReset ∉ ps := by simp) (hb : Piece.outbound ∉ ps := by simp) (hc : Piece.record ∉ ps := by simp)
    (hq : Piece.reports ∉ ps := by simp) : t.ReportPlacesLaw := by
  have outbound : t.outbound = s.outbound := h.same _ hb
  have reports : t.reports = s.reports := h.same _ hq
  intro reset
  rw [reports, outbound, fetchInFlight_congr h hc]
  exact hs ((h.same _ hr).symm.trans reset)

/-- The law speaks of what raising a report, and an OVERFLOW, keep. -/
theorem State.ReportPlacesLaw.of_places (hs : s.ReportPlacesLaw) (reset : t.inReset = s.inReset)
    (outbound : t.outbound.length = s.outbound.length) (fetch : t.fetchInFlight = s.fetchInFlight)
    (queue : s.reports.places ≤ 32 → t.reports.places ≤ 32 ∧ t.reports.sent = s.reports.sent ∧
      t.reports.reservations = s.reports.reservations) : t.ReportPlacesLaw := by
  intro hr
  obtain ⟨h1, h2, h3⟩ := hs (reset ▸ hr)
  obtain ⟨q1, q2, q3⟩ := queue h2
  rw [q3, outbound, fetch, q2]
  exact ⟨h1, q1, h3⟩

theorem reportPlaces_raise (k : ReportKind) (body : List Byte) (s : State) (hs : s.ReportPlacesLaw) :
    (raiseReport k body s).ReportPlacesLaw := by
  have touched := raiseReport_touches s k body
  refine hs.of_places (touched.same .inReset (by simp)) ?_ (fetchInFlight_congr touched)
    (raiseReport_places k body s)
  rw [touched.same .outbound (by simp)]

theorem reportPlaces_stable : ReportStable State.ReportPlacesLaw :=
  .of_frame reportPlaces_raise fun _ _ h hs => hs.congr h

/-! ## Messages that end (R111) -/

/-- Taking the first item with a tag away takes the tag away once. -/
theorem map_tag_eraseP (ms : List Message) (x : Byte) :
    (ms.eraseP fun m => m.tag == x).map (·.tag) = (ms.map (·.tag)).erase x := by
  induction ms with
  | nil => rfl
  | cons m ms ih =>
    by_cases h : m.tag = x
    · simp [h]
    · simp [h, ih]

/-- R111, R124: the outcome of a held message takes the place of its reservation. -/
theorem reportPlaces_settle {m : Message} (o : MessageOutcome) (extra : List Byte) (hm : m.tag ∈ s.outbound.map (·.tag))
    (hs : s.ReportPlacesLaw) : (settleMessage m o extra s).ReportPlacesLaw := by
  intro hr
  obtain ⟨h1, h2, h3⟩ := hs hr
  obtain ⟨x, hx, ht⟩ := List.mem_map.1 hm
  have held := List.length_pos_of_mem hx
  have left := List.length_eraseP_of_mem (p := fun x : Message => x.tag == m.tag) hx (by simp [ht])
  have fetch : (settleMessage m o extra s).fetchInFlight = s.fetchInFlight := rfl
  rw [fetch]
  simp only [settleMessage_eq, ReportQueue.places, List.length_append, List.length_singleton, Config.reportPlaces] at h2 ⊢
  refine ⟨?_, ?_, h3⟩ <;> omega

/-- Messages that each end, or each keep the tags held, are settled one by one: what a settling keeps, all keep. -/
theorem overAll_settles {P : State → Prop} {ms : List Message} {f : Message → State → State}
    (sub : (ms.map (·.tag)).Subperm (s.outbound.map (·.tag)))
    (each : ∀ m u, P u → m.tag ∈ u.outbound.map (·.tag) → P (f m u) ∧
      ((f m u).outbound.map (·.tag) = u.outbound.map (·.tag) ∨
        (f m u).outbound.map (·.tag) = (u.outbound.map (·.tag)).erase m.tag))
    (hs : P s) : P (overAll ms f s) := by
  induction ms generalizing s with
  | nil => exact hs
  | cons m ms ih =>
    have held : m.tag ∈ s.outbound.map (·.tag) := sub.subset List.mem_cons_self
    obtain ⟨kept, tags⟩ := each m s hs held
    refine ih ?_ kept
    rcases tags with e | e
    · rw [e]
      exact (List.sublist_cons_self m.tag _).subperm.trans sub
    · rw [e]
      simpa using sub.erase m.tag

/-- What each settling of a held message and each change of a message keeps, the loss of the messages of a station keeps. -/
theorem loseMessages_keeps {P : State → Prop}
    (settle : ∀ m o extra u, P u → m.tag ∈ u.outbound.map (·.tag) → P (settleMessage m o extra u))
    (mark : ∀ t u, P u → P (changeMessage t (fun x => { x with gone := true }) u)) (a : Nat) (hs : P s) :
    P (loseMessages a s) := by
  refine overAll_settles ((List.filter_sublist).map _).subperm (fun m u hu hm => ?_) hs
  unfold loseMessage
  split
  · exact ⟨mark m.tag u hu, .inl (changeMessage_tags _ _ _ fun _ => rfl)⟩
  · exact ⟨settle m _ _ u hu hm, .inr (map_tag_eraseP u.outbound m.tag)⟩

theorem reportPlaces_changeMessage (x : Byte) (f : Message → Message) (hs : s.ReportPlacesLaw) :
    (changeMessage x f s).ReportPlacesLaw :=
  hs.of_places rfl (by simp [changeMessage]) rfl fun h => ⟨h, rfl, rfl⟩

theorem reportPlaces_loseMessages (a : Nat) (s : State) (hs : s.ReportPlacesLaw) : (loseMessages a s).ReportPlacesLaw :=
  loseMessages_keeps (fun _ o extra _ hu hm => reportPlaces_settle o extra hm hu)
    (fun x _ hu => reportPlaces_changeMessage x _ hu) a hs

/-! ## The end of a record (R35) -/

theorem reportPlaces_attemptFailed {m : Message} (fault : Bool) (hm : m.tag ∈ s.outbound.map (·.tag))
    (hs : s.ReportPlacesLaw) : (attemptFailed m fault s).ReportPlacesLaw := by
  have tag : (if fault then { m with made := m.made - 1 } else m).tag ∈ s.outbound.map (·.tag) := by
    split <;> exact hm
  unfold attemptFailed
  dsimp only
  split
  · exact reportPlaces_settle _ _ tag hs
  · split
    · exact reportPlaces_settle _ _ tag hs
    · split
      · exact reportPlaces_settle _ _ tag hs
      · exact reportPlaces_changeMessage _ _ hs

theorem reportPlaces_outboundOutcome (x : Byte) (o : TxnOutcome) (hs : s.ReportPlacesLaw) :
    (outboundOutcome x o s).ReportPlacesLaw := by
  unfold outboundOutcome
  split
  · exact hs
  · rename_i m hm
    have held : m.tag ∈ s.outbound.map (·.tag) := List.mem_map_of_mem (message_some hm).2
    split
    · exact reportPlaces_settle _ _ held hs
    · exact reportPlaces_attemptFailed _ held hs
    · exact reportPlaces_attemptFailed _ held hs
    · exact reportPlaces_attemptFailed _ held hs
    · exact reportPlaces_attemptFailed _ held hs
    · exact reportPlaces_attemptFailed _ held hs
    · exact reportPlaces_attemptFailed _ held hs
    · exact hs

/-- R119: a FETCH that ends gives its reservation away, filled or released. -/
theorem reportPlaces_fetchEnds (a : Nat) (o : TxnOutcome) (hf : s.fetchInFlight = true) (hs : s.ReportPlacesLaw) :
    (fetchOutcome a o s).discarded.ReportPlacesLaw := by
  have reset : (fetchOutcome a o s).inReset = s.inReset := (fetchOutcome_touches s a o).same .inReset (by simp)
  have outbound : (fetchOutcome a o s).outbound = s.outbound := (fetchOutcome_touches s a o).same .outbound (by simp)
  intro hr
  obtain ⟨h1, h2, h3⟩ := hs (reset ▸ hr)
  have none : (fetchOutcome a o s).discarded.fetchInFlight = false := rfl
  rw [none]
  simp only [hf, if_true] at h1
  simp only [State.discarded, outbound]
  unfold fetchOutcome
  split
  · simp only [fillReservation, State.setReports_reports, ReportQueue.places, List.length_append, List.length_singleton,
      Config.reportPlaces, Bool.false_eq_true, if_false] at h2 ⊢
    refine ⟨?_, ?_, h3⟩ <;> omega
  · obtain ⟨q1, q2, q3⟩ := overflowIfDue_places
      (s.setReports { s.reports with reservations := s.reports.reservations - 1 }) (by
        simp only [ReportQueue.places, State.setReports_reports, Config.reportPlaces] at h2 ⊢
        omega)
    unfold releaseReservation
    rw [q2, q3]
    refine ⟨?_, q1, h3⟩
    simp [h1]

/-- R35 step 4: with the record gone, the owner's step leaves the law in force: only a FETCH holds a reservation of its own,
and it gives it away. -/
theorem reportPlaces_ownerEnds {r r' : Record} (o : TxnOutcome) (owned : Bool) (hr : s.txn.record = some r')
    (ho : r'.origin = r.origin) (hs : s.ReportPlacesLaw) : (ownerStep r o owned s).discarded.ReportPlacesLaw := by
  by_cases fetch : r.origin = .fetch
  · simp only [ownerStep, fetch]
    exact reportPlaces_fetchEnds _ o (by simp [State.fetchInFlight, hr, ho, fetch]) hs
  · have kept : (ownerStep r o owned s).ReportPlacesLaw := by
      unfold ownerStep
      split
      · exact hs
      · exact hs.congr (slotOutcome_touches s _ o)
      · exact hs.congr (triggerOutcome_touches s _ owned)
      · exact reportPlaces_outboundOutcome _ o hs
      · rename_i h
        exact absurd h fetch
      · exact hs
    have before : (ownerStep r o owned s).fetchInFlight = false := by
      rw [fetchInFlight_congr (ownerStep_touches s r o owned)]
      simp [State.fetchInFlight, hr, ho, fetch]
    exact kept.of_places rfl rfl before.symm fun h => ⟨h, rfl, rfl⟩

/-- R35: the end of a record keeps the law. -/
theorem reportPlaces_endRecord (o : TxnOutcome) (s : State) (hs : s.ReportPlacesLaw) : (endRecord o s).ReportPlacesLaw := by
  unfold endRecord
  split
  · exact hs
  · rename_i r hr
    extract_lets owned src cleared delivered
    have phase : (s.setTxn { s.txn with record := some { r with phase := .ended } }).ReportPlacesLaw :=
      hs.of_places rfl rfl (by simp [State.fetchInFlight, hr]) fun h => ⟨h, rfl, rfl⟩
    have marked : cleared.ReportPlacesLaw := by
      unfold cleared clearOnLine
      split
      · exact reportPlaces_changeMessage _ _ phase
      · exact phase.congr (changeInput_touches _ _ _)
      · exact phase
    have told := reportPlaces_stable.deliver reportPlaces_loseMessages r o marked
    have touched := ((rosterStep_touches cleared r o).same .record (by simp [outcomePieces, lossPieces]))
    have record : (attentionStep r o (cacheStep r o (rosterStep r o cleared))).txn.record =
        some { r with phase := .ended } :=
      ((attentionStep_touches _ r o).same .record (by simp)).trans
        (((cacheStep_touches _ r o).same .record (by simp)).trans
          (touched.trans ((clearOnLine_touches _ r).same .record (by simp))))
    exact reportPlaces_ownerEnds o owned record rfl told

/-! ## Requests on the queues, and the report queue's offer -/

/-- R131: the acknowledged entries and the kept ones are the SENT entries. -/
theorem splitAfter_some {n : Word16} {es gone kept : List SentReport} (h : splitAfter n es = some (gone, kept)) :
    es = gone ++ kept := by
  induction es generalizing gone kept with
  | nil => cases h
  | cons e es ih =>
    simp only [splitAfter] at h
    split at h
    · cases h
      rfl
    · obtain ⟨⟨g, k⟩, hs, he⟩ := Option.map_eq_some_iff.1 h
      cases he
      simpa using ih hs

@[simp] theorem length_clearFirstDue (es : List SentReport) : (clearFirstDue es).length = es.length := by
  induction es with
  | nil => rfl
  | cons e es ih =>
    by_cases h : e.resendDue = true
    · simp [clearFirstDue, h]
    · simp [clearFirstDue, h, ih]

/-- R128: the oldest of the highest level is one of the entries. -/
theorem bestUnsent_some {rs : List Report} {r : Report} (h : bestUnsent rs = some r) : r ∈ rs := by
  unfold bestUnsent at h
  split at h
  · cases h
  · exact List.mem_of_find?_eq_some h

/-- R105, R106: a message is accepted only where a place can be reserved. -/
theorem reportPlaces_accept (m : Message) (hr : s.canReserve = true) (hs : s.ReportPlacesLaw) :
    (acceptMessage m s).ReportPlacesLaw := by
  intro reset
  obtain ⟨h1, h2, h3⟩ := hs reset
  have room : s.reports.places < Config.reportPlaces := of_decide_eq_true hr
  have fetch : (acceptMessage m s).fetchInFlight = s.fetchInFlight := rfl
  rw [fetch]
  simp only [acceptMessage, takeReservation, State.setOutbound_reports, State.setOutbound_outbound,
    State.setReports_reports, State.setReports_outbound, List.length_append, List.length_singleton,
    ReportQueue.places] at room ⊢
  refine ⟨?_, ?_, h3⟩ <;> omega

/-- R118, R124: a FETCH starts only where a place can be reserved. -/
theorem reportPlaces_fetch {r : Record} (free : s.txn.record = none) (ho : r.origin = .fetch) (hr : s.canReserve = true)
    (hs : s.ReportPlacesLaw) : ((takeReservation s).setTxn { s.txn with record := some r }).ReportPlacesLaw := by
  intro reset
  obtain ⟨h1, h2, h3⟩ := hs reset
  have room : s.reports.places < Config.reportPlaces := of_decide_eq_true hr
  have before : s.fetchInFlight = false := by simp [State.fetchInFlight, free]
  have after : ((takeReservation s).setTxn { s.txn with record := some r }).fetchInFlight = true := by
    simp [State.fetchInFlight, ho]
  rw [after]
  simp only [before, Bool.false_eq_true, if_false, if_true, takeReservation, State.setTxn_reports, State.setTxn_outbound,
    State.setReports_reports, State.setReports_outbound, ReportQueue.places] at h1 room ⊢
  refine ⟨?_, ?_, h3⟩ <;> omega

/-- R127, R131: acknowledged entries free places, one of which a waiting OVERFLOW may take. -/
theorem reportPlaces_ack {n : Word16} {gone kept : List SentReport} (hk : splitAfter n s.reports.sent = some (gone, kept))
    (hs : s.ReportPlacesLaw) : (overflowIfDue (s.setReports { s.reports with sent := kept })).ReportPlacesLaw := by
  have freed : (s.setReports { s.reports with sent := kept }).ReportPlacesLaw := by
    intro reset
    obtain ⟨h1, h2, h3⟩ := hs reset
    rw [splitAfter_some hk] at h3
    simp only [ReportQueue.places, splitAfter_some hk, List.length_append, State.setReports_reports] at h2 h3 ⊢
    exact ⟨h1, by omega, by omega⟩
  have touched := overflowIfDue_touches (s.setReports { s.reports with sent := kept })
  refine freed.of_places (touched.same .inReset (by simp)) ?_ (fetchInFlight_congr touched) (overflowIfDue_places _)
  rw [touched.same .outbound (by simp)]

/-- R128, R130: the report queue's offer marks an entry SENT only while the window has room. -/
theorem reportPlaces_offer (hs : s.ReportPlacesLaw) : (takeOffer s).ReportPlacesLaw := by
  intro reset
  have fetch : (takeOffer s).fetchInFlight = s.fetchInFlight := fetchInFlight_congr (takeOffer_touches s)
  have outbound : (takeOffer s).outbound = s.outbound := (takeOffer_touches s).same .outbound (by simp)
  obtain ⟨h1, h2, h3⟩ := hs (((takeOffer_touches s).same .inReset (by simp)).symm.trans reset)
  rw [fetch, outbound]
  unfold takeOffer
  split
  · simp only [ReportQueue.places, beginSending, State.setLink_reports, State.setReports_reports,
      length_clearFirstDue] at h2 ⊢
    exact ⟨h1, h2, h3⟩
  · split
    · rename_i room
      split
      · rename_i r hr
        have mem := bestUnsent_some hr
        have held := List.length_pos_of_mem mem
        have left := List.length_eraseP_of_mem (p := fun x : Report => x.level == r.level) mem (by simp)
        simp only [ReportQueue.places, beginSending, State.setLink_reports, State.setReports_reports, List.length_append,
          List.length_singleton, left] at h2 ⊢
        exact ⟨h1, by omega, by omega⟩
      · exact ⟨h1, h2, h3⟩
    · exact ⟨h1, h2, h3⟩

/-! ## Every step -/

theorem reportPlaces_commands : CommandStable State.ReportPlacesLaw where
  raise := reportPlaces_raise
  frame _ _ h hs := hs.congr h (by simp [restPieces]) (by simp [restPieces]) (by simp [restPieces]) (by simp [restPieces])
  flag n s _ hs := ⟨hs.congr (activate_touches s n), hs.congr (deactivate_touches s n)⟩
  late s hs := hs.congr (latchCycleLate_touches s)
  hands r s hs hr ho := hs.of_places rfl rfl (by simp [State.fetchInFlight, hr, ho]) fun h => ⟨h, rfl, rfl⟩
  goesOn r r' s hs hr ho := hs.of_places rfl rfl (by simp [State.fetchInFlight, hr, ho]) fun h => ⟨h, rfl, rfl⟩
  ends := reportPlaces_endRecord
  sends _ m _ hs _ _ := reportPlaces_changeMessage m.tag _ hs
  fetches _ _ hs hr ho hc := reportPlaces_fetch hr ho hc hs
  loses := reportPlaces_loseMessages
  aborts s hs := overAll_settles (List.Subperm.refl _)
    (fun m u hu hm => ⟨reportPlaces_settle _ _ hm hu, .inr (map_tag_eraseP u.outbound m.tag)⟩) hs
  accepts m _ hs _ _ _ hr := reportPlaces_accept m hr hs
  cancels _ _ hs hm := reportPlaces_settle _ _ (List.mem_map_of_mem hm) hs
  acks _ _ _ _ hs hk := reportPlaces_ack hk hs
  resends _ hs := fun reset => by
    obtain ⟨h1, h2, h3⟩ := hs reset
    exact ⟨h1, by simpa [ownResendReports, ReportQueue.places] using h2, by simpa [ownResendReports] using h3⟩
  levels _ _ hs := hs
  clears n s hs := hs.congr (clearLatch_touches s n)
  offers _ hs := reportPlaces_offer hs
  babbles s hs := hs.congr (t := activate .babble (s.setSeg { s.seg with babbleFault := true }))
    ((setSeg_touches s _).mono.trans (activate_touches _ _).mono : Touches [.transmitter, .babble, .wire, .conds] s _)
  recovers s hs := hs.congr (t := deactivate .babble (s.setSeg { s.seg with babbleFault := false }))
    ((setSeg_touches s _).mono.trans (deactivate_touches _ _).mono : Touches [.transmitter, .babble, .wire, .conds] s _)
  holds _ _ := fun reset => nomatch reset
  resets _ _ _ := fun _ => ⟨rfl, by simp [resetPart, ReportQueue.reset, ReportQueue.places], by
    simp [resetPart, ReportQueue.reset]⟩

/-- Settles O53: every command keeps the law, by the places that the operations of the queues take and free. -/
theorem everyStepKeepsReportPlaces : Obligations.EveryStepKeepsReportPlaces := fun _ _ hs h =>
  step_keeps (P := State.ReportPlacesLaw) (fun _ _ hs => hs) (fun _ hs => hs) reportPlaces_commands.command hs h

end Sys2Proof.Machine
end

section
/-! PROOFS. Chapter 7, the law of the conditions (R126, R138, R139, R168). -/

-- One theorem after another: theorems checked side by side would each hold a thread.
set_option Elab.async false

namespace Sys2Proof.Machine

variable {s t : State}

/-- The law speaks of the conditions, the count of lost reports and the babble fault alone. -/
theorem State.ConditionLaw.of_counts (hs : s.ConditionLaw) (conds : t.conds = s.conds)
    (losses : t.reports.lossTally = s.reports.lossTally) (fault : t.seg.babbleFault = s.seg.babbleFault) :
    t.ConditionLaw := by
  obtain ⟨latched, late, loss, babble⟩ := hs
  exact ⟨conds ▸ latched, conds ▸ late, by rw [conds, losses]; exact loss, by rw [conds, fault]; exact babble⟩

theorem State.ConditionLaw.congr {ps : List Piece} (h : Touches ps s t) (hs : s.ConditionLaw)
    (hc : Piece.conds ∉ ps := by simp) (hr : Piece.reports ∉ ps := by simp) (hb : Piece.babble ∉ ps := by simp) :
    t.ConditionLaw :=
  hs.of_counts (h.same _ hc) (congrArg _ (h.same .reports hr)) (h.same _ hb)

/-- A condition takes flags that are lawful for it. -/
theorem State.ConditionLaw.put {n : ConditionName} {x : Condition} (hs : s.ConditionLaw)
    (conds : t.conds = s.conds.put n x) (latched : x.active = true → x.latched = true)
    (late : n = .cycleLate → x.active = false)
    (loss : (if n = .reportLoss then x else s.conds.reportLoss).active = true ↔ 0 < t.reports.lossTally)
    (babble : (if n = .babble then x else s.conds.babble).active = t.seg.babbleFault) : t.ConditionLaw := by
  obtain ⟨all, never, -, -⟩ := hs
  have get : ∀ m, t.conds.get m = if m = n then x else s.conds.get m := fun m => by rw [conds, get_put]
  refine ⟨fun m => ?_, ?_, ?_, ?_⟩
  · rw [get]
    split
    · exact latched
    · exact all m
  · have := get .cycleLate
    simp only [ConditionSet.get] at this
    rw [this]
    split
    · rename_i h
      exact late h.symm
    · exact never
  · have := get .reportLoss
    simp only [ConditionSet.get, eq_comm (b := n)] at this
    rw [this]
    exact loss
  · have := get .babble
    simp only [ConditionSet.get, eq_comm (b := n)] at this
    rw [this]
    exact babble

/-- R138: a condition that becomes active is latched, whether or not it was active before. -/
theorem State.ConditionLaw.latches (hs : s.ConditionLaw) (n : ConditionName) :
    ((s.conds.get n).latched || !(s.conds.get n).active) = true := by
  cases h : (s.conds.get n).active with
  | false => simp
  | true => simp [hs.1 n h]

/-- R126: raising a report counts a loss and makes REPORT_LOSS active together, or neither. -/
theorem conditions_raise (k : ReportKind) (body : List Byte) (s : State) (hs : s.ConditionLaw) :
    (raiseReport k body s).ConditionLaw := by
  unfold raiseReport
  split
  · exact hs
  · split
    · exact hs.of_counts rfl rfl rfl
    · by_cases room : s.reports.places < 32
      · rw [postReport_room room]
        exact hs.of_counts rfl rfl rfl
      · obtain ⟨us, he, -⟩ := postReport_full (r := { kind := k, level := s.reports.levelOf k, body := body
                                                      reserved := false }) (Nat.le_of_not_lt room)
        rw [he, activate_eq]
        exact hs.put (n := .reportLoss) rfl (fun _ => hs.latches .reportLoss) (by simp) (by simp)
          (by simpa using hs.2.2.2)

/-- R138: a condition that follows no count and no fault becomes active, or inactive. -/
theorem conditions_flag {n : ConditionName} (hn : n = .noEcho ∨ n = .foreign ∨ n = .hostSilent) (hs : s.ConditionLaw) :
    (activate n s).ConditionLaw ∧ (deactivate n s).ConditionLaw := by
  have apart : n ≠ .reportLoss ∧ n ≠ .babble ∧ n ≠ .cycleLate := by rcases hn with rfl | rfl | rfl <;> simp
  obtain ⟨hr, hb, hl⟩ := apart
  rw [activate_eq, deactivate_eq]
  exact ⟨hs.put (n := n) rfl (fun _ => hs.latches n) (by simp [hl]) (by simpa [hr] using hs.2.2.1)
      (by simpa [hb] using hs.2.2.2),
    hs.put (n := n) rfl (by simp) (by simp) (by simpa [hr] using hs.2.2.1) (by simpa [hb] using hs.2.2.2)⟩

/-- R19, R139: CYCLE_LATE is latched, and not active when it has been. -/
theorem conditions_late (s : State) (hs : s.ConditionLaw) : (latchCycleLate s).ConditionLaw := by
  unfold latchCycleLate
  rw [activate_eq, deactivate_eq]
  refine hs.put (n := .cycleLate) (x := ⟨false, (s.conds.cycleLate).latched || !(s.conds.cycleLate).active⟩) ?_ (by simp)
    (by simp) (by simpa using hs.2.2.1) (by simpa using hs.2.2.2)
  rfl

/-- R127: an OVERFLOW that takes its place ends REPORT_LOSS with the count. -/
theorem conditions_overflow (s : State) (hs : s.ConditionLaw) : (overflowIfDue s).ConditionLaw := by
  unfold overflowIfDue
  split
  · exact hs
  · split
    · rw [deactivate_eq]
      exact hs.put (n := .reportLoss) rfl (by simp) (by simp) (by simp) (by simpa using hs.2.2.2)
    · exact hs

theorem conditions_reports : ReportStable State.ConditionLaw :=
  .of_frame conditions_raise fun _ _ h hs => hs.congr h

theorem conditions_settle (m : Message) (o : MessageOutcome) (extra : List Byte) (hs : s.ConditionLaw) :
    (settleMessage m o extra s).ConditionLaw := hs.of_counts rfl rfl rfl

theorem conditions_changeMessage (x : Byte) (f : Message → Message) (hs : s.ConditionLaw) :
    (changeMessage x f s).ConditionLaw := hs.of_counts rfl rfl rfl

theorem conditions_lose (a : Nat) (s : State) (hs : s.ConditionLaw) : (loseMessages a s).ConditionLaw :=
  loseMessages_keeps (fun _ _ _ _ hu _ => conditions_settle _ _ _ hu) (fun _ _ hu => conditions_changeMessage _ _ hu) a hs

theorem conditions_attemptFailed (m : Message) (fault : Bool) (hs : s.ConditionLaw) :
    (attemptFailed m fault s).ConditionLaw := by
  unfold attemptFailed
  dsimp only
  split
  · exact conditions_settle _ _ _ hs
  · split
    · exact conditions_settle _ _ _ hs
    · split
      · exact conditions_settle _ _ _ hs
      · exact conditions_changeMessage _ _ hs

theorem conditions_outbound (x : Byte) (o : TxnOutcome) (hs : s.ConditionLaw) : (outboundOutcome x o s).ConditionLaw := by
  unfold outboundOutcome
  split
  · exact hs
  · split
    · exact conditions_settle _ _ _ hs
    · exact conditions_attemptFailed _ _ hs
    · exact conditions_attemptFailed _ _ hs
    · exact conditions_attemptFailed _ _ hs
    · exact conditions_attemptFailed _ _ hs
    · exact conditions_attemptFailed _ _ hs
    · exact conditions_attemptFailed _ _ hs
    · exact hs

theorem conditions_fetch (a : Nat) (o : TxnOutcome) (hs : s.ConditionLaw) : (fetchOutcome a o s).ConditionLaw := by
  unfold fetchOutcome
  split
  · exact hs.of_counts rfl rfl rfl
  · exact conditions_overflow _ (hs.of_counts rfl rfl rfl)

/-- R35 step 4. -/
theorem conditions_owner (r : Record) (o : TxnOutcome) (owned : Bool) (hs : s.ConditionLaw) :
    (ownerStep r o owned s).ConditionLaw := by
  unfold ownerStep
  split
  · exact hs
  · exact hs.congr (slotOutcome_touches s _ o)
  · exact hs.congr (triggerOutcome_touches s _ owned)
  · exact conditions_outbound _ o hs
  · exact conditions_fetch _ o hs
  · exact hs

/-- R35. -/
theorem conditions_ends (o : TxnOutcome) (s : State) (hs : s.ConditionLaw) : (endRecord o s).ConditionLaw := by
  unfold endRecord
  split
  · exact hs
  · rename_i r _
    have ended := hs.congr (setRecord_touches s (some { r with phase := .ended }))
    have marked := ended.congr (clearOnLine_touches _ r)
    exact (conditions_owner r o _ (conditions_reports.deliver conditions_lose r o marked)).congr (setRecord_touches _ none)

/-- R141: the latch of a condition that is not active is cleared. -/
theorem conditions_clear (n : ConditionName) (s : State) (hs : s.ConditionLaw) : (clearLatch n s).ConditionLaw := by
  unfold clearLatch
  split
  · exact hs
  · rename_i idle
    refine hs.put (n := n) rfl (by simp) (by simp) ?_ ?_
    · refine Iff.trans ?_ hs.2.2.1
      split
      · rename_i h
        subst h
        simpa [ConditionSet.get] using idle
      · exact .rfl
    · refine Eq.trans ?_ hs.2.2.2
      split
      · rename_i h
        subst h
        simpa [ConditionSet.get] using idle
      · rfl

theorem conditions_commands : CommandStable State.ConditionLaw where
  raise := conditions_raise
  frame _ _ h hs := hs.congr h (by simp [restPieces]) (by simp [restPieces]) (by simp [restPieces])
  flag _ _ hn hs := conditions_flag hn hs
  late := conditions_late
  hands _ s hs _ _ := hs.congr (setRecord_touches s _)
  goesOn _ _ s hs _ _ := hs.congr (setRecord_touches s _)
  ends := conditions_ends
  sends _ _ _ hs _ _ := conditions_changeMessage _ _ hs
  fetches _ _ hs _ _ _ := hs.of_counts rfl rfl rfl
  loses := conditions_lose
  aborts _ hs := overAll_keeps hs fun _ _ _ hu => conditions_settle _ _ _ hu
  accepts _ _ hs _ _ _ _ := hs.of_counts rfl rfl rfl
  cancels _ _ hs _ := conditions_settle _ _ _ hs
  acks _ _ _ _ hs _ := conditions_overflow _ (hs.of_counts rfl rfl rfl)
  resends _ hs := hs.of_counts rfl rfl rfl
  levels _ _ hs := hs.of_counts rfl rfl rfl
  clears := conditions_clear
  offers s hs := by
    refine hs.of_counts ((takeOffer_touches s).same .conds (by simp)) ?_
      ((takeOffer_touches s).same .babble (by simp))
    unfold takeOffer beginSending
    split
    · rfl
    · split_ifs
      · split <;> rfl
      · rfl
  babbles s hs := by
    rw [activate_eq]
    exact hs.put (n := .babble) rfl (fun _ => hs.latches .babble) (by simp) (by simpa using hs.2.2.1)
      (by simp)
  recovers s hs := by
    rw [deactivate_eq]
    exact hs.put (n := .babble) rfl (by simp) (by simp) (by simpa using hs.2.2.1) (by simp)
  holds s hs := hs.congr (holdInReset_touches s)
  resets _ _ _ := ⟨fun n => by cases n <;> simp [resetPart, ConditionSet.reset, ConditionSet.get, Condition.clear],
    rfl, by simp [resetPart, ConditionSet.reset, Condition.clear, ReportQueue.reset], rfl⟩

/-- Settles O57: REPORT_LOSS and BABBLE change together with the count and the fault that they follow, and no operation makes a
condition active without its latch. -/
theorem everyStepKeepsConditions : Obligations.EveryStepKeepsConditions := fun _ _ hs h =>
  step_keeps (P := State.ConditionLaw) (fun _ _ hs => hs) (fun _ hs => hs) conditions_commands.command hs h

end Sys2Proof.Machine
end

section
/-! PROOFS. Chapter 10: the law of the link (R177, R178, R183), the taking of requests (R179-R182), the part held in reset
(R188), and the laws at the reset state. -/

-- One theorem after another: theorems checked side by side would each hold a thread.
set_option Elab.async false

namespace Sys2Proof.Machine

variable {s t : State}

/-! ## The law of the link (R177, R178, R183) -/

/-- R177, R178: the bounds of the law. -/
def HostLink.bounded (l : HostLink) : Prop :=
  l.buffer.length ≤ Config.bufferPlaces ∧ l.timeoutTally ≤ 65535 ∧ l.crcTally ≤ 65535 ∧ l.formatTally ≤ 65535 ∧
    l.overrunTally ≤ 65535

theorem State.linkLaw_iff : s.LinkLaw ↔
    s.link.bounded ∧ (s.link.waiting ≠ none → s.link.sending ≠ none ∧ s.link.sendingResponse = false) := by
  simp only [State.LinkLaw, HostLink.bounded, and_assoc]

/-- Without a waiting response the bounds are the whole law. -/
theorem State.LinkLaw.of_none (hb : s.link.bounded) (hw : s.link.waiting = none) : s.LinkLaw :=
  State.linkLaw_iff.2 ⟨hb, fun h => absurd hw h⟩

theorem State.LinkLaw.congr {ps : List Piece} (h : Touches ps s t) (hs : s.LinkLaw) (hl : Piece.link ∉ ps := by simp) :
    t.LinkLaw := by
  have link : t.link = s.link := h.same _ hl
  rw [State.linkLaw_iff, link]
  exact State.linkLaw_iff.1 hs

theorem tallyUp_le (n : Nat) : tallyUp n ≤ 65535 := Nat.min_le_left _ _

/-- R179: the law, with no response in hand. -/
def State.LinkFree (s : State) : Prop := s.LinkLaw ∧ s.link.responseInHand = false

theorem responseInHand_eq_false : s.link.responseInHand = false ↔ s.link.waiting = none ∧ s.link.sendingResponse = false := by
  simp [HostLink.responseInHand]

/-- R183: a response is handed to the transmit side: it waits only behind a report. -/
theorem linkLaw_transmit (f : LinkFrame) (hs : s.LinkFree) : (transmit f s).LinkLaw := by
  obtain ⟨law, free⟩ := hs
  obtain ⟨bounded, -⟩ := State.linkLaw_iff.1 law
  obtain ⟨waiting, report⟩ := responseInHand_eq_false.1 free
  unfold transmit
  split
  · exact .of_none bounded waiting
  · rename_i g hg
    exact State.linkLaw_iff.2 ⟨bounded, fun _ => ⟨by simp [hg], report⟩⟩

/-- R179: a request that is taken finds no response in hand. -/
theorem linkFree_admit {f : RequestFrame} (ha : admitFrame f s = some t) (hs : s.LinkLaw) : t.LinkFree := by
  have free : s.link.responseInHand = false := by
    cases h : s.link.responseInHand with
    | false => rfl
    | true => simp [admitFrame, h] at ha
  rcases admitFrame_cases ha with rfl | ⟨rest, hb, rfl⟩
  · exact ⟨hs, free⟩
  · refine ⟨⟨?_, hs.2⟩, free⟩
    have := hs.1
    rw [hb] at this
    exact Nat.le_of_succ_le this

/-- R179: a request whose performing keeps the law with no response in hand keeps the law. -/
theorem linkLaw_takeFrame {f : RequestFrame} {act : State → State × Reply} (perform : ∀ u : State, u.LinkFree → (act u).1.LinkFree)
    (hs : s.LinkLaw) : (takeFrame f act s).LinkLaw := by
  rcases takeFrame_cases f act s with e | ⟨u, -, ha, e | e⟩
  · exact e.symm ▸ hs
  · obtain ⟨r, -, e⟩ := e
    exact e.symm ▸ linkLaw_transmit _ (linkFree_admit ha hs)
  · rw [e]
    exact linkLaw_transmit _ (perform u (linkFree_admit ha hs))

theorem linkFree_changeBitRate (r : BitRate) (hs : s.LinkFree) : (changeBitRate r s).LinkFree := by
  unfold changeBitRate
  split
  · exact hs
  · exact hs

theorem linkFree_applyParams (es : List (Nat × Nat)) (hs : s.LinkFree) : (applyParams es s).LinkFree := by
  refine overAll_keeps hs fun e _ u hu => ?_
  unfold applyParam
  dsimp only
  split
  · exact hu
  · exact hu
  · exact hu
  · exact linkFree_changeBitRate _ hu
  · exact hu
  · exact hu
  · exact hu
  · exact hu
  · exact hu

/-- R182: the owners of the requests leave the buffer, the tallies and the transmit side. -/
theorem linkFree_owner (r : RequestName) (p : List Byte) (hs : s.LinkFree) : (ownerOf r p s).1.LinkFree := by
  by_cases apart : Piece.link ∈ ownerPieces r
  · cases r
    case configure =>
      change (ownConfigure p s).1.LinkFree
      unfold ownConfigure
      dsimp only
      split
      · exact hs
      · split
        · split
          · exact hs
          · exact linkFree_applyParams _ hs
        · exact linkFree_applyParams _ hs
    case setLinkRate =>
      change (ownSetLinkRate p s).1.LinkFree
      unfold ownSetLinkRate
      split
      · exact hs
      · split
        · exact hs
        · exact hs
    case restart => exact hs
    all_goals simp [ownerPieces, runPieces, outcomePieces, lossPieces] at apart
  · have link : (ownerOf r p s).1.link = s.link := (ownerOf_touches r p s).same _ apart
    exact ⟨hs.1.congr (ownerOf_touches r p s) apart, link ▸ hs.2⟩

theorem linkLaw_dropFormat (hs : s.LinkLaw) : (dropFormat s).LinkLaw := by
  obtain ⟨h1, h2, h3, -, h5, h6⟩ := hs
  exact ⟨h1, h2, h3, tallyUp_le _, h5, h6⟩

/-- R176, R177. -/
theorem linkLaw_judgeFrame (bs : List Byte) (hs : s.LinkLaw) : (judgeFrame bs s).LinkLaw := by
  obtain ⟨h1, h2, h3, h4, h5, h6⟩ := hs
  unfold judgeFrame
  dsimp only
  split
  · exact ⟨h1, h2, tallyUp_le _, h4, h5, h6⟩
  · split
    · exact linkLaw_dropFormat ⟨h1, h2, h3, h4, h5, h6⟩
    · unfold enterBuffer
      split
      · rename_i room
        refine ⟨?_, h2, h3, h4, h5, h6⟩
        rw [State.setLink_link, List.length_append, List.length_singleton]
        omega
      · exact ⟨h1, h2, h3, h4, tallyUp_le _, h6⟩

/-- R175. -/
theorem linkLaw_takeByte (b : Byte) (hs : s.LinkLaw) : (takeByte b s).LinkLaw := by
  unfold takeByte
  split
  · exact hs
  · unfold assembleByte
    split
    · split
      · exact hs
      · exact linkLaw_dropFormat hs
    · exact hs
  · exact (linkLaw_judgeFrame _ hs : State.LinkLaw _)

/-- R183: a waiting response that goes out waits no longer. -/
theorem linkLaw_startWaiting (hb : s.link.bounded) (free : s.link.sending = none) : (startWaiting s).LinkLaw := by
  unfold startWaiting
  rw [free]
  split
  · exact .of_none hb rfl
  · rename_i hn
    exact .of_none hb (Option.eq_none_iff_forall_ne_some.2 fun f hf => hn f rfl hf)

theorem bounded_afterResponse (free : s.link.sending = none) (hs : s.link.bounded) :
    (afterResponse s).link.bounded ∧ (afterResponse s).link.sending = none := by
  unfold afterResponse
  split
  · exact ⟨by simp [softResetPart, resetPart, HostLink.reset, HostLink.bounded], rfl⟩
  · split
    · exact ⟨hs, free⟩
    · exact ⟨hs, free⟩

/-- R172, R183: the frame being sent has left. -/
theorem linkLaw_finishFrame (hs : s.LinkLaw) : (finishFrame s).LinkLaw := by
  obtain ⟨bounded, -⟩ := State.linkLaw_iff.1 hs
  unfold finishFrame
  split
  · exact hs
  · rename_i f _
    dsimp only
    split
    · obtain ⟨after, free⟩ := bounded_afterResponse
        (s := (s.reach (s.frameEnd f)).setLink { (s.reach (s.frameEnd f)).link with sending := none }) rfl bounded
      exact linkLaw_startWaiting after free
    · exact linkLaw_startWaiting bounded rfl

/-- R128: the report queue's offer is taken with no response waiting. -/
theorem linkLaw_takeOffer (waiting : s.link.waiting = none) (hs : s.LinkLaw) : (takeOffer s).LinkLaw := by
  obtain ⟨bounded, -⟩ := State.linkLaw_iff.1 hs
  unfold takeOffer beginSending
  split
  · exact .of_none bounded waiting
  · split
    · split
      · exact .of_none bounded waiting
      · exact hs
    · exact hs

theorem linkLaw_command (c : Instr) (s t : State) (hs : s.LinkLaw) (he : exec c s = .next t) : t.LinkLaw := by
  obtain ⟨ps, v⟩ := commandView c
  by_cases apart : Piece.link ∈ ps
  swap
  · exact hs.congr (exec_touches v he) apart
  cases v
  case request r num p =>
    rw [exec_request] at he
    cases he
    refine linkLaw_takeFrame (fun u hu => ?_) hs
    rcases requestSteps_cases r p (ownerOf r p) u with e | ⟨-, -, e⟩
    · exact e.symm ▸ hu
    · exact e.symm ▸ linkFree_owner r p hu
  all_goals obtain rfl := Host.Outcome.next.inj he
  case unknownRequest code num p =>
    split
    · exact hs
    · exact linkLaw_takeFrame (fun _ hu => hu) hs
  case resetPinAsserted =>
    obtain ⟨-, h2, h3, h4, h5, -⟩ := hs
    exact .of_none ⟨Nat.zero_le _, h2, h3, h4, h5⟩ rfl
  case hardReset cause => exact .of_none (by simp [hardResetPart, resetPart, HostLink.reset, HostLink.bounded]) rfl
  case linkByteReceived b => exact unlessInReset_keeps hs fun _ => linkLaw_takeByte b hs
  case linkFrameSent => exact unlessInReset_keeps hs fun _ => linkLaw_finishFrame hs
  case linkFormatError =>
    refine unlessInReset_keeps hs fun _ => ?_
    split
    · exact linkLaw_dropFormat hs
    · exact hs
  case linkFrameReceived =>
    refine unlessInReset_keeps hs fun _ => ?_
    split
    · exact linkLaw_judgeFrame _ hs
    · exact hs
  case interByteTimeout =>
    refine unlessInReset_keeps hs fun _ => ?_
    split
    · obtain ⟨h1, -, h3, h4, h5, h6⟩ := hs
      exact ⟨h1, tallyUp_le _, h3, h4, h5, h6⟩
    · exact hs
  case reportTaken =>
    refine unlessInReset_keeps hs fun _ => ?_
    split
    · rename_i free
      exact linkLaw_takeOffer (by simp_all) hs
    · exact hs
  case linkRateChange =>
    refine unlessInReset_keeps hs fun _ => ?_
    split
    · exact linkLaw_finishFrame hs
    · exact hs
  case softReset =>
    refine unlessInReset_keeps hs fun _ => ?_
    split
    · exact linkLaw_finishFrame hs
    · exact hs
  all_goals simp [boundaryPieces, stoppingEndPieces, gapPieces, framePieces, verdictPieces, outcomePieces, lossPieces] at apart

/-- Settles O59: a response waits only when one was produced with a report on TXD, and none is produced while one is in hand. -/
theorem everyStepKeepsLink : Obligations.EveryStepKeepsLink := fun _ _ hs h =>
  step_keeps (P := State.LinkLaw) (fun _ _ hs => hs) (fun _ hs => hs) linkLaw_command hs h

/-! ## The taking of requests (R179-R182) -/

/-- Settles O4: the three clauses are those of the taking of any frame. -/
theorem requestWaitsOrReplays : Obligations.RequestWaitsOrReplays := by
  intro r num p s
  simp only [exec_request]
  refine ⟨fun h => congrArg _ (takeFrame_waits h), fun l h hl hc hn hz => ?_,
    fun hr hf hb => congrArg _ (takeFrame_arrived hr hf hb)⟩
  exact congrArg _ (takeFrame_repeat h hl (by simpa [LastRequest.repeats, hc, hn, requestFrame] using hz))

/-- R179 step 3: a length that is not the request's. -/
theorem lengthAllowed_eq_false {r : RequestName} {n : Nat} (h : ¬ LengthOf r n) : lengthAllowed r n = false :=
  Bool.eq_false_iff.2 fun hl => h ((lengthAllowed_iff r n).1 hl)

/-- R181: a request that the mode refuses is answered so, and nothing else happens. -/
theorem exec_modeRefused {r : RequestName} {num : Word16} {p : List Byte} {e : Result}
    (h : TakenFresh (requestFrame r num p) s) (hl : LengthOf r p.length) (hm : modeRefusal r s.sched.mode = some e) :
    exec (requestCommand r num p) s = .next (s.onlyAnswered r num (.plain e)) := by
  rw [exec_request, takeRequest_modeRefused h ((lengthAllowed_iff r _).2 hl) hm]

/-- Settles O5: the two checks come before the owner of the request. -/
theorem lengthAndModeAreCheckedFirst : Obligations.LengthAndModeAreCheckedFirst := by
  refine ⟨fun r num p s h hl => ?_, fun num p s => ⟨fun h h1 h2 hm => ?_, fun h hm => ?_, fun h hm => ?_, fun h h1 h2 hm => ?_⟩⟩
  · rw [exec_request, takeRequest_badLength h (lengthAllowed_eq_false hl)]
  · exact exec_modeRefused h ⟨h1, h2⟩ (by cases hmode : s.sched.mode <;> simp_all [modeRefusal])
  · exact exec_modeRefused h rfl (by cases hmode : s.sched.mode <;> simp_all [modeRefusal])
  · exact exec_modeRefused h rfl (by cases hmode : s.sched.mode <;> simp_all [modeRefusal])
  · exact exec_modeRefused h ⟨h1, h2⟩ (by cases hmode : s.sched.mode <;> simp_all [modeRefusal])

/-- R179 step 2: the codes that name a request lie in the seven ranges of R193. -/
theorem codeKnown_iff : ∀ code : Byte, codeKnown code = true ↔
    (0x01 ≤ code.toNat ∧ code.toNat ≤ 0x0B) ∨ (0x20 ≤ code.toNat ∧ code.toNat ≤ 0x26) ∨
      (0x30 ≤ code.toNat ∧ code.toNat ≤ 0x33) ∨ (0x40 ≤ code.toNat ∧ code.toNat ≤ 0x42) ∨
      (0x50 ≤ code.toNat ∧ code.toNat ≤ 0x54) ∨ (0x60 ≤ code.toNat ∧ code.toNat ≤ 0x62) ∨
      (0x70 ≤ code.toNat ∧ code.toNat ≤ 0x73) := by decide

theorem exec_unknownRequest (code : Byte) (num : Word16) (p : List Byte) (s : State) :
    exec (.unknownRequest code num p) s = .next (if codeKnown code then s
      else takeFrame { code := code, num := num, payload := p } (fun t => refuse .unknownRequest t) s) := rfl

/-- Settles O6: the codes by the tables, the answer by the taking of any frame. -/
theorem unknownCodeIsAnswered : Obligations.UnknownCodeIsAnswered := by
  refine ⟨⟨rfl, rfl, rfl, rfl, rfl, rfl⟩, fun code num p s => ⟨codeKnown_iff code, fun hk h => ?_, fun hk hr hf hb => ?_, fun hk => ?_⟩⟩
  · rw [exec_unknownRequest, hk, if_neg Bool.false_ne_true, takeFrame_fresh h]
    rfl
  · rw [exec_unknownRequest, exec_unknownRequest, hk, if_neg Bool.false_ne_true, if_neg Bool.false_ne_true,
      takeFrame_arrived hr hf hb]
  · rw [exec_unknownRequest, hk, if_pos rfl]

/-! ## The part held in reset (R188) -/

/-- R188: while the part is held in reset no request is taken. -/
theorem takeFrame_held {f : RequestFrame} {act : State → State × Reply} (h : s.inReset = true) : takeFrame f act s = s :=
  unlessInReset_held h

/-- Settles O3: every happening but the three waits for the end of reset, and a pin that moves is not looked at. -/
theorem heldResetIgnoresCommands : Obligations.HeldResetIgnoresCommands := by
  intro s held
  refine ⟨fun c h1 h2 h3 => ?_, fun i v => ?_⟩
  · obtain ⟨ps, view⟩ := commandView c
    cases view
    case request r num p => rw [exec_request, takeRequest, takeFrame_held held]
    case unknownRequest code num p => rw [exec_unknownRequest, takeFrame_held held, ite_self]
    case resetPinAsserted => exact absurd rfl h1
    case hardReset cause => exact absurd rfl (h2 cause)
    case localLinePinChange i v => exact absurd rfl (h3 i v)
    all_goals exact congrArg Host.Outcome.next (unlessInReset_held held)
  · have moved : exec (.localLinePinChange i v) s = .next (if s.lines.pins[i] = v then s else setPin i v s) := by
      refine congrArg Host.Outcome.next ?_
      rw [unlessInReset_held (f := takeLasting i) held, unlessInReset_held (s := setPin i v s) held]
    rw [moved]
    split
    · rename_i same
      have pins : s.lines.pins.set i v = s.lines.pins := by rw [← same]; exact Vector.set_getElem_self _
      rw [pins]
    · rfl

/-! ## The laws at the reset state -/

theorem entry_reset (a : Nat) : State.reset.entry a = .vacant := by
  unfold State.entry
  split
  · rfl
  · by_cases h : a - 1 < 62
    · simp [State.reset, Roster.reset, h]
    · simp [State.reset, Roster.reset, Vector.getElem?_eq_none (Nat.le_of_not_lt h)]

theorem reset_configLaw : State.reset.ConfigLaw :=
  ⟨fun _ => ⟨rfl, fun a => .inl (by rw [entry_reset]; rfl)⟩, fun h => absurd h Bool.false_ne_true⟩

theorem reset_identityLaw : State.reset.IdentityLaw := by
  have idle : ∀ a, ¬ ((State.reset.entry a).state = .active ∨ (State.reset.entry a).state = .held) := fun a => by
    simp [entry_reset, RosterEntry.vacant]
  exact ⟨fun a h => absurd h (idle a), fun a b _ h => absurd h (idle a), List.nodup_nil, fun a ha => absurd ha List.not_mem_nil,
    Nat.le_refl 1, by decide⟩

theorem reset_conditionLaw : State.reset.ConditionLaw := conditions_commands.resets .power .b115200 State.reset

theorem reset_bankLawful : State.reset.bankLawful [] :=
  ⟨Nat.zero_le _, List.Pairwise.nil, fun _ hx => absurd hx List.not_mem_nil⟩

theorem reset_referenceLaw : State.reset.ReferenceLaw := by
  refine ⟨reset_bankLawful, reset_bankLawful, fun i k h => ?_, List.Pairwise.nil, Nat.zero_le _⟩
  have off : State.reset.lines.records[i] = .off := by simp [State.reset, LocalLines.reset]
  rw [off] at h
  simp [LineRecord.trigger, LineRecord.mirror] at h

/-- Settles O60: nothing is held, waits or is in flight there, every entry is VACANT and every line is OFF. -/
theorem resetStateIsLawful : Obligations.ResetStateIsLawful :=
  ⟨reportPlaces_commands.resets .power .b115200 State.reset, reset_configLaw, fun _ hp => absurd hp List.not_mem_nil,
    reset_identityLaw, ⟨Nat.zero_le _, List.nodup_nil, Nat.zero_le _⟩, fun _ hr => absurd hr (by simp [State.reset, TransactionUnit.reset]), reset_conditionLaw,
    reset_referenceLaw, ⟨fun _ => rfl, List.Pairwise.nil, fun _ ho => absurd ho List.not_mem_nil⟩,
    .of_none (by simp [State.reset, HostLink.reset, HostLink.bounded]) rfl⟩

end Sys2Proof.Machine
end

section
/-! PROOFS. The requests that read, swap banks, and change an entry or a point. -/

-- One theorem after another: theorems checked side by side would each hold a thread.
set_option Elab.async false

namespace Sys2Proof.Machine

variable {s t : State}

/-! ## A request that is taken and allowed -/

/-- R179 step 5: a request that is taken, of an allowed length and in an allowed mode, is its owner's. -/
theorem exec_taken {r : RequestName} {num : Word16} {p : List Byte} (h : TakenFresh (requestFrame r num p) s)
    (hl : lengthAllowed r p.length = true) (hm : modeRefusal r s.sched.mode = none) :
    exec (requestCommand r num p) s =
      .next ((ownerOf r p s.taken).1.answered r num (ownerOf r p s.taken).2) := by
  rw [exec_request, takeRequest_owner h hl hm]

/-- R182: an owner that answers a reply and leaves the state. -/
theorem exec_reads {r : RequestName} {num : Word16} {p : List Byte} {x : Reply} (h : TakenFresh (requestFrame r num p) s)
    (hl : lengthAllowed r p.length = true) (hm : modeRefusal r s.sched.mode = none)
    (ho : ownerOf r p s.taken = (s.taken, x)) :
    exec (requestCommand r num p) s = .next (s.onlyAnswered r num x) := by
  rw [exec_taken h hl hm, ho]
  rfl

/-- An owner that accepts and leaves a state. -/
theorem exec_accepts {r : RequestName} {num : Word16} {p : List Byte} (h : TakenFresh (requestFrame r num p) s)
    (hl : lengthAllowed r p.length = true) (hm : modeRefusal r s.sched.mode = none)
    (ho : ownerOf r p s.taken = accept t) :
    exec (requestCommand r num p) s = .next (t.answered r num okReply) := by
  rw [exec_taken h hl hm, ho]
  rfl

/-! ## Fields of payloads (R191) -/

@[simp] theorem field8_zero (b : Byte) (bs : List Byte) : field8 (b :: bs) 0 = b.toNat := rfl

@[simp] theorem field8_succ (b : Byte) (bs : List Byte) (i : Nat) : field8 (b :: bs) (i + 1) = field8 bs i := by
  simp [field8]

@[simp] theorem field16_one (b hi lo : Byte) (bs : List Byte) :
    field16 (b :: hi :: lo :: bs) 1 = hi.toNat * 256 + lo.toNat := by simp [field16, ofBytes]

theorem stationAddress_iff (a : Nat) : stationAddress a = true ↔ 1 ≤ a ∧ a ≤ 62 := by
  simp [stationAddress, Config.stationCount]

theorem keyOf_bytes (a n : Byte) (bs : List Byte) : keyOf (a :: n :: bs) = { address := a.toNat, number := n.toNat } := rfl

theorem Key.valid_iff (k : Key) : k.valid = true ↔ 1 ≤ k.address ∧ k.address ≤ 62 ∧ k.number ≤ 15 := by
  simp [Key.valid, stationAddress_iff, and_assoc]

/-! ## The entries of the roster (R46) -/

/-- The entries stand in the order of their addresses. -/
theorem entries_eq_map_entry (s : State) : s.roster.entries.toList = stationAddresses.map s.entry := by
  refine List.ext_getElem (by simp [stationAddresses, Config.stationCount]) fun i h1 h2 => ?_
  have hi : i < 62 := by simpa using h1
  simp [stationAddresses, State.entry, hi]

theorem heldPresent_iff (s : State) : s.heldPresent = true ↔ ∃ a ∈ stationAddresses, (s.entry a).state = .held := by
  simp [State.heldPresent, entries_eq_map_entry]

theorem length_entriesIn (x : RosterState) (s : State) :
    (s.roster.entries.toList.filter fun e => e.state == x).length = (addressesIn x s).length := by
  simp [entries_eq_map_entry, addressesIn, List.filter_map, Function.comp_def]

/-- A request that replaces an entry once its frame is taken. -/
theorem setEntry_taken (s : State) (a : Nat) (e : RosterEntry) :
    s.taken.setEntry a e = { s.taken with roster := (s.setEntry a e).roster } := by
  unfold State.setEntry
  split
  · rfl
  · rfl

/-- R60: the address check of the requests of chapter 3. -/
theorem forAddress_eq (b : Byte) (bs : List Byte) (act : Nat → State → State × Reply) (s : State) :
    forAddress (b :: bs) act s = if 1 ≤ b.toNat ∧ b.toNat ≤ 62 then act b.toNat s else refuse .badArgument s := by
  simp only [forAddress, field8_zero, stationAddress_iff]

/-! ## READ_CONFIG, IDENTIFY and READ_CONDITIONS (R4, R140, R185) -/

/-- Settles O7: each reads its bytes off the state. -/
theorem fixedReadsAnswer : Obligations.FixedReadsAnswer := by
  intro num s
  refine ⟨fun h => ⟨paramBytes s.sched.params, rfl, fun n hn => ?_, exec_reads (r := .readConfig) h rfl rfl rfl⟩,
    fun h => exec_reads (r := .identify) h rfl rfl rfl, fun h => ?_⟩
  · interval_cases n <;> exact ofBytes_be16 _
  · refine (exec_reads (r := .readConditions) h rfl rfl rfl).trans ?_
    have held : s.heldPresent = decide (∃ a ∈ stationAddresses, (s.entry a).state = .held) :=
      Bool.eq_iff_iff.2 (by rw [heldPresent_iff, decide_eq_true_iff])
    rw [← held]
    rfl

/-! ## READ_LINES and LIST_MESSAGES (R115, R154) -/

/-- A concatenation of runs of one length, cut at the place of one of them. -/
theorem take_drop_flatMap {α β : Type} {f : α → List β} {n : Nat} (hf : ∀ x, (f x).length = n) (xs : List α) (i : Nat) (x : α)
    (hx : xs[i]? = some x) : ((xs.flatMap f).drop (n * i)).take n = f x := by
  induction xs generalizing i with
  | nil => simp at hx
  | cons y ys ih =>
    cases i with
    | zero =>
      obtain rfl : y = x := by simpa using hx
      simp [← hf y]
    | succ i =>
      have := ih i (by simpa using hx)
      rw [List.flatMap_cons, Nat.mul_succ, Nat.add_comm, List.drop_append, hf y, List.drop_eq_nil_of_le (by rw [hf y]; omega),
        List.nil_append, Nat.add_sub_cancel_left]
      exact this

theorem length_lineBytes (s : State) (i : Fin 8) : (lineBytes s i).length = 7 := by
  unfold lineBytes
  dsimp only
  split <;> rfl

theorem allLines_getElem? (i : Fin 8) : allLines[i.val]? = some i := by
  fin_cases i <;> rfl

/-- R154: a mirrored line shows its safe level while its point is not GOOD, or is not declared. -/
theorem showingSafe_eq (l : MirrorLine) (s : State) :
    showingSafe l s = decide (∀ q, s.point l.binding = some q → q.quality ≠ .good) := by
  unfold showingSafe
  split
  · rename_i p hp
    cases hq : p.quality <;> simp [hp, hq]
  · rename_i hp
    simp [hp]

/-- Settles O9: the lines seven bytes each, the messages in the order in which they would be offered. -/
theorem lineAndMessageReadsAnswer : Obligations.LineAndMessageReadsAnswer := by
  intro num s
  refine ⟨fun h => ⟨allLines.flatMap (lineBytes s.taken), ?_, exec_reads (r := .readLines) h rfl rfl rfl, fun i => ?_⟩,
    fun h => exec_reads (r := .listMessages) h rfl rfl rfl⟩
  · simp [length_lineBytes, allLines]
  · rw [take_drop_flatMap (length_lineBytes s.taken) _ _ _ (allLines_getElem? i)]
    unfold lineBytes
    dsimp only [State.taken_lines]
    cases s.lines.records[i] with
    | outputMirror l =>
      dsimp only
      rw [showingSafe_eq]
      rfl
    | _ => rfl

/-! ## READ_SLOTS, READ_DEVICE, LIST_DEVICES and READ_POINT (R12, R64, R65, R74) -/

theorem bankOf_eq (b : Byte) :
    bankOf b = if 1 < b.toNat then none else if b.toNat = 0 then some .active else some .shadow := by
  unfold bankOf
  generalize b.toNat = n
  match n with
  | 0 => rfl
  | 1 => rfl
  | n + 2 => simp

/-- R12: both banks are read alike. -/
theorem ownReadSlots_eq (b hi lo : Byte) (s : State) :
    ownReadSlots [b, hi, lo] s = (s, if 1 < b.toNat then .plain .badArgument
      else .okWith (slotsReply (if b.toNat = 0 then s.sched.active else s.sched.shadow) (hi.toNat * 256 + lo.toNat))) := by
  simp only [ownReadSlots, List.getD_cons_zero, bankOf_eq, field16_one]
  split_ifs
  · rfl
  · rfl
  · rfl

theorem rosterStateOf_eq_none {b : Byte} (h : 4 < b.toNat) : rosterStateOf b = none := by
  unfold rosterStateOf
  generalize b.toNat = n at h
  match n with
  | n + 5 => rfl

/-- R191: the code of a state is the byte that names it. -/
theorem rosterStateOf_code {b : Byte} (h : b.toNat ≤ 4) : ∃ x, rosterStateOf b = some x ∧ rosterStateCode x = b := by
  revert b
  decide

theorem rosterStateCode_beq (x y : RosterState) : (rosterStateCode x == rosterStateCode y) = (x == y) := by
  cases x <;> cases y <;> rfl

/-- R65. -/
theorem ownListDevices_eq (b : Byte) (s : State) :
    ownListDevices [b] s = (s, if b.toNat ≤ 4 then
        let as := stationAddresses.filter fun a => rosterStateCode (s.entry a).state == b
        .okWith ([byteOf as.length, byteOf s.roster.probePointer] ++ as.map byteOf)
      else .plain .badArgument) := by
  unfold ownListDevices
  by_cases h : b.toNat ≤ 4
  · obtain ⟨x, hx, hc⟩ := rosterStateOf_code h
    subst hc
    simp only [List.getD_cons_zero, hx, h, if_true, rosterStateCode_beq]
    rfl
  · simp only [List.getD_cons_zero, rosterStateOf_eq_none (Nat.lt_of_not_le h), h, if_false, refuse]

/-- R74. -/
theorem ownReadPoint_eq (a n : Byte) (s : State) :
    ownReadPoint [a, n] s = (s, if ¬ (1 ≤ a.toNat ∧ a.toNat ≤ 62 ∧ n.toNat ≤ 15) then .plain .badArgument
      else
        match s.point { address := a.toNat, number := n.toNat } with
        | none => .plain .notFound
        | some p => .okWith (pointBytes p)) := by
  simp only [ownReadPoint, keyOf_bytes, Bool.not_eq_true', ← Bool.not_eq_true, Key.valid_iff]
  split
  · rfl
  · cases s.point { address := a.toNat, number := n.toNat } with
    | none => rfl
    | some p => rfl

/-- Settles O10: each reads its bytes off the bank, the entry, the roster or the record. -/
theorem keyedReadsAnswer : Obligations.KeyedReadsAnswer := by
  intro num b s
  refine ⟨fun hi lo h => ?_, fun h => ?_, fun h => ?_, fun n h => ?_⟩
  · refine (exec_reads (r := .readSlots) h rfl rfl (ownReadSlots_eq b hi lo s.taken)).trans ?_
    simp only [State.taken_sched, slotsReply, List.length_take]
    rfl
  · refine (exec_reads (r := .readDevice) h rfl rfl
      (x := if 1 ≤ b.toNat ∧ b.toNat ≤ 62 then .okWith (entryBytes (s.entry b.toNat)) else .plain .badArgument) ?_)
    refine (forAddress_eq b [] (fun a t => (t, .okWith (entryBytes (t.entry a)))) s.taken).trans ?_
    split
    · rfl
    · rfl
  · exact exec_reads (r := .listDevices) h rfl rfl (ownListDevices_eq b s.taken)
  · refine (exec_reads (r := .readPoint) h rfl rfl (ownReadPoint_eq b n s.taken)).trans ?_
    simp only [State.taken_point]
    cases hp : s.point { address := b.toNat, number := n.toNat } with
    | none => rfl
    | some p =>
      have key := (point_some hp).1
      simp only [pointBytes, key]
      simp [byteOf]

/-! ## SWAP and CANCEL_SWAP (R13-R15) -/

/-- Settles O18: the owner goes by the mode. -/
theorem swapDependsOnMode : Obligations.SwapDependsOnMode := by
  intro num s h
  refine (exec_taken (r := .swap) h rfl rfl).trans (congrArg _ ?_)
  change (ownSwap s.taken).1.answered .swap num (ownSwap s.taken).2 = _
  unfold ownSwap
  rw [State.taken_sched]
  cases s.sched.mode with
  | config => rfl
  | run =>
    cases s.sched.swapPending with
    | false => rfl
    | true => rfl
  | stopping => rfl

/-- Settles O19: the swap-pending flag decides. -/
theorem cancelSwapClearsPendingSwap : Obligations.CancelSwapClearsPendingSwap := by
  intro num s h
  refine (exec_taken (r := .cancelSwap) h rfl rfl).trans (congrArg _ ?_)
  change (ownCancelSwap s.taken).1.answered .cancelSwap num (ownCancelSwap s.taken).2 = _
  unfold ownCancelSwap
  rw [State.taken_sched]
  cases s.sched.swapPending with
  | false => rfl
  | true => rfl

/-! ## BAR, UNBAR, PROVISION and FORGET (R61-R63) -/

/-- Settles O21: BAR at an entry that is not ACTIVE. -/
theorem barExcludesInactiveEntry : Obligations.BarExcludesInactiveEntry := by
  intro num b s h
  have owner := forAddress_eq b [] (fun a t => accept (barEntry a t)) s.taken
  refine ⟨fun out => ?_, fun h1 h2 idle => ?_⟩
  · exact exec_reads (r := .bar) h rfl rfl (owner.trans (if_neg (by omega)))
  · refine exec_accepts (r := .bar) h rfl rfl (owner.trans ?_)
    rw [if_pos ⟨h1, h2⟩, barEntry, State.taken_stationActive, idle, if_neg Bool.false_ne_true, setEntry_taken]
    rfl

/-- Settles O23: the address and the state of the entry decide. -/
theorem unbarReturnsToVacant : Obligations.UnbarReturnsToVacant := by
  intro num b s h
  have owner := forAddress_eq b [] unbarEntry s.taken
  by_cases inside : 1 ≤ b.toNat ∧ b.toNat ≤ 62
  · rw [if_neg (not_not.2 inside)]
    rw [if_pos inside, unbarEntry, State.taken_entry] at owner
    by_cases barred : (s.entry b.toNat).state = .barred
    · rw [if_neg (not_not.2 barred)]
      rw [if_pos barred, setEntry_taken] at owner
      exact exec_accepts (r := .unbar) h rfl rfl owner
    · rw [if_pos barred]
      rw [if_neg barred] at owner
      exact exec_reads (r := .unbar) h rfl rfl owner
  · rw [if_pos inside]
    rw [if_neg inside] at owner
    exact exec_reads (r := .unbar) h rfl rfl owner

/-- R63: a request that sets the expected identity of the entry that its first byte names. -/
theorem exec_setExpected {r : RequestName} {num : Word16} {b : Byte} {bs : List Byte} {i : Option Identity}
    (h : TakenFresh (requestFrame r num (b :: bs)) s) (hl : lengthAllowed r (b :: bs).length = true)
    (hm : modeRefusal r s.sched.mode = none)
    (ho : ownerOf r (b :: bs) s.taken = forAddress (b :: bs) (fun a t => accept (setExpected a i t)) s.taken) :
    exec (requestCommand r num (b :: bs)) s = .next
      (if ¬ (1 ≤ b.toNat ∧ b.toNat ≤ 62) then s.onlyAnswered r num (.plain .badArgument)
       else State.answered { s.taken with roster := (s.setEntry b.toNat { s.entry b.toNat with expected := i }).roster }
        r num okReply) := by
  rw [forAddress_eq] at ho
  by_cases inside : 1 ≤ b.toNat ∧ b.toNat ≤ 62
  · rw [if_neg (not_not.2 inside)]
    rw [if_pos inside, setExpected, setEntry_taken] at ho
    exact exec_accepts h hl hm ho
  · rw [if_pos inside]
    rw [if_neg inside] at ho
    exact exec_reads h hl hm ho

/-- Settles O24: both requests set the expected identity, FORGET to none. -/
theorem expectedIdentityIsSetOrForgotten : Obligations.ExpectedIdentityIsSetOrForgotten := by
  intro num b i s
  refine ⟨fun h => ?_, fun h => exec_setExpected (r := .forget) h rfl rfl rfl⟩
  refine exec_setExpected (r := .provision) (i := some i) h rfl rfl ?_
  change forAddress _ (fun a t => accept (setExpected a (some (identityOf (identityBytes i))) t)) _ = _
  rw [identityOf_identityBytes]

/-! ## DECLARE, WITHDRAW and WATCH (R72, R73, R75) -/

theorem declareInRange_iff (k : Key) (length limit : Nat) : declareInRange k length limit = true ↔
    1 ≤ k.address ∧ k.address ≤ 62 ∧ k.number ≤ 15 ∧ 1 ≤ length ∧ length ≤ 32 ∧ 1 ≤ limit := by
  simp [declareInRange, Key.valid_iff, and_assoc]

/-- R72: the quality of a new record. -/
theorem newQuality_eq (a : Nat) (s : State) : newQuality a s =
    if s.sched.mode ≠ .run then .offline else if s.stationActive a then .never else .noSource := by
  unfold newQuality
  rw [ite_not]

/-- Settles O25: the checks of the operation are those of R72, and the record joins behind every key that is not after its
own. -/
theorem declareChecksThenJoins : Obligations.DeclareChecksThenJoins := by
  intro num a n len lim s h k
  refine (exec_taken (r := .declare) h rfl rfl).trans (congrArg _ ?_)
  change (ownDeclare [a, n, len, lim] s.taken).1.answered .declare num (ownDeclare [a, n, len, lim] s.taken).2 = _
  simp only [ownDeclare, keyOf_bytes, field8_zero, field8_succ, Bool.not_eq_true', ← Bool.not_eq_true, declareInRange_iff,
    State.taken_point, State.taken_points, Option.isSome_iff_ne_none, insertPoint_eq, newQuality_eq, State.taken_sched,
    State.taken_stationActive]
  by_cases inside : 1 ≤ a.toNat ∧ a.toNat ≤ 62 ∧ n.toNat ≤ 15 ∧ 1 ≤ len.toNat ∧ len.toNat ≤ 32 ∧ 1 ≤ lim.toNat
  · by_cases declared : s.point k = none
    · by_cases full : Config.pointCapacity ≤ s.points.length
      · rw [if_neg (not_not.2 inside), if_neg (not_not.2 inside), if_neg (not_not.2 declared), if_neg (not_not.2 declared),
          if_pos full, if_pos full]
        rfl
      · rw [if_neg (not_not.2 inside), if_neg (not_not.2 inside), if_neg (not_not.2 declared), if_neg (not_not.2 declared),
          if_neg full, if_neg full]
        rfl
    · rw [if_neg (not_not.2 inside), if_neg (not_not.2 inside), if_pos declared, if_pos declared]
      rfl
  · rw [if_pos inside, if_pos inside]
    rfl

/-! ## WITHDRAW and WATCH (R73, R75) -/

/-- R73: the owner of WITHDRAW at a key. -/
theorem ownWithdraw_bytes (a n : Byte) (s : State) (k : Key) (hk : keyOf [a, n] = k) : ownWithdraw [a, n] s =
    if !k.valid then refuse .badArgument s
    else if (s.point k).isNone then refuse .notFound s
    else
      match referenceTo k s with
      | some (kind, n) => (s, { result := .referenced, extra := referenceKindCode kind :: be16 n })
      | none => accept (s.setPoints (s.points.filter fun p => p.key != k)) := by
  subst hk
  rfl

/-- Settles O26: the checks in order, and the references in theirs. -/
theorem withdrawRefusesReferencedPoint : Obligations.WithdrawRefusesReferencedPoint := by
  intro num a n s h k slotIn lineAt
  refine (exec_taken (r := .withdraw) h rfl rfl).trans (congrArg _ ?_)
  change (ownWithdraw [a, n] s.taken).1.answered .withdraw num (ownWithdraw [a, n] s.taken).2 = _
  have valid : k.valid = true ↔ 1 ≤ a.toNat ∧ a.toNat ≤ 62 ∧ n.toNat ≤ 15 := Key.valid_iff k
  rw [ownWithdraw_bytes a n s.taken k rfl]
  clear_value k
  dsimp only [slotIn, lineAt]
  simp only [Bool.not_eq_true', ← Bool.not_eq_true, valid, Option.isNone_iff_eq_none, State.taken_point]
  by_cases inside : 1 ≤ a.toNat ∧ a.toNat ≤ 62 ∧ n.toNat ≤ 15
  · rw [if_neg (not_not.2 inside), if_neg (not_not.2 inside)]
    by_cases absent : s.point k = none
    · rw [if_pos absent, if_pos absent]
      rfl
    · rw [if_neg absent, if_neg absent]
      simp only [referenceTo, slotNaming, lineNaming, State.taken_sched, State.taken_lines]
      cases s.sched.active.find? (fun x => x.key == k) with
      | some x => rfl
      | none =>
        cases s.sched.shadow.find? (fun x => x.key == k) with
        | some x => rfl
        | none =>
          cases allLines.find? (fun i => LineRecord.trigger s.lines.records[i] == some k) with
          | some i => rfl
          | none =>
            cases allLines.find? (fun i => LineRecord.mirror s.lines.records[i] == some k) with
            | some i => rfl
            | none => rfl
  · rw [if_pos inside, if_pos inside]
    rfl

/-- R191: a byte names a watch mode when it is 0, 1 or 2. -/
theorem watchModeOf_eq (b : Byte) : watchModeOf b =
    if b.toNat ≤ 2 then some (if b.toNat = 0 then .off else if b.toNat = 1 then .change else .quality) else none := by
  unfold watchModeOf
  generalize b.toNat = n
  match n with
  | 0 => rfl
  | 1 => rfl
  | 2 => rfl
  | n + 3 => simp

/-- Where keys are distinct, replacing a record is changing the record of that key. -/
theorem replacePoint_eq_map {ps : List Point} {p : Point} {f : Point → Point} (hd : (ps.map (·.key)).Nodup) (hp : p ∈ ps)
    (hf : (f p).key = p.key) : replacePoint ps (f p) = ps.map fun q => if q.key = p.key then f q else q := by
  refine List.map_congr_left fun q hq => ?_
  rw [hf]
  split
  · rename_i hk
    rw [List.inj_on_of_nodup_map hd hq hp hk]
  · rfl

/-- R75: the owner of WATCH at a key. -/
theorem ownWatch_bytes (a n w : Byte) (s : State) (k : Key) (hk : keyOf [a, n, w] = k) : ownWatch [a, n, w] s =
    if k.valid = true ∧ w.toNat ≤ 2 then
      match s.point k with
      | some p => accept (s.setPoints (replacePoint s.points
          { p with watch := if w.toNat = 0 then .off else if w.toNat = 1 then .change else .quality }))
      | none => refuse .notFound s
    else refuse .badArgument s := by
  have mode : watchModeOf ([a, n, w].getD 2 0) = _ := watchModeOf_eq w
  unfold ownWatch
  rw [mode, hk]
  by_cases named : w.toNat ≤ 2
  · rw [if_pos named]
    cases k.valid with
    | true => exact (if_pos (show true = true ∧ w.toNat ≤ 2 from ⟨rfl, named⟩)).symm
    | false => rfl
  · rw [if_neg named, if_neg (show ¬ (k.valid = true ∧ w.toNat ≤ 2) from fun h => named h.2)]
    cases k.valid with
    | true => rfl
    | false => rfl

/-- Settles O27: the record is replaced, and no happening comes of it. -/
theorem watchSetsMode : Obligations.WatchSetsMode := by
  intro num a n w s h distinct k
  refine (exec_taken (r := .watch) h rfl rfl).trans (congrArg _ ?_)
  change (ownWatch [a, n, w] s.taken).1.answered .watch num (ownWatch [a, n, w] s.taken).2 = _
  have valid : k.valid = true ↔ 1 ≤ a.toNat ∧ a.toNat ≤ 62 ∧ n.toNat ≤ 15 := Key.valid_iff k
  rw [ownWatch_bytes a n w s.taken k rfl]
  clear_value k
  generalize (if w.toNat = 0 then WatchMode.off else if w.toNat = 1 then .change else .quality) = mode
  simp only [valid, and_assoc, State.taken_point, State.taken_points]
  by_cases inside : 1 ≤ a.toNat ∧ a.toNat ≤ 62 ∧ n.toNat ≤ 15 ∧ w.toNat ≤ 2
  · rw [if_pos inside, if_neg (not_not.2 inside)]
    cases hp : s.point k with
    | none => rfl
    | some p =>
      obtain ⟨key, mem⟩ := point_some hp
      dsimp only
      rw [if_neg (Option.some_ne_none p),
        replacePoint_eq_map (p := p) (f := fun q => { q with watch := mode }) distinct mem rfl, key]
      rfl
  · rw [if_neg inside, if_pos inside]
    rfl

end Sys2Proof.Machine
end

section
/-! PROOFS. The requests on messages, reports, conditions, lines and the link, and STATUS. -/

-- One theorem after another: theorems checked side by side would each hold a thread.
set_option Elab.async false

namespace Sys2Proof.Machine

variable {s t : State}

/-! ## SEND and CANCEL (R105, R106, R114) -/

theorem messageClassOf_eq (b : Byte) :
    messageClassOf b = if b.toNat ≤ 1 then some (if b.toNat = 0 then .normal else .urgent) else none := by
  unfold messageClassOf
  generalize b.toNat = n
  match n with
  | 0 => rfl
  | 1 => rfl
  | n + 2 => simp

/-- R105 check 1, R106: the message that a SEND payload describes. -/
theorem messageOf_bytes (d tag c lim : Byte) (body : List Byte) (h : body.length ≤ 48) :
    messageOf (d :: tag :: c :: lim :: body) =
      if 1 ≤ d.toNat ∧ d.toNat ≤ 62 ∧ c.toNat ≤ 1 ∧ 1 ≤ lim.toNat ∧ lim.toNat ≤ 4 ∧ body ≠ [] then
        some { tag := tag, destination := d.toNat, cls := if c.toNat = 0 then .normal else .urgent, payload := body
               limit := lim.toNat, made := 0, state := .queued, onLine := false, gone := false }
      else none := by
  have cls : messageClassOf ((d :: tag :: c :: lim :: body).getD 2 0) = _ := messageClassOf_eq c
  have nonempty : 1 ≤ body.length ↔ body ≠ [] := List.length_pos_iff
  unfold messageOf
  rw [cls]
  by_cases hc : c.toNat ≤ 1
  · rw [if_pos hc]
    simp only [field8_zero, field8_succ, List.drop_succ_cons, List.drop_zero, Bool.and_eq_true, stationAddress_iff,
      decide_eq_true_eq, nonempty, h, hc, and_true, true_and, and_assoc, List.getD_cons_succ, List.getD_cons_zero]
  · rw [if_neg hc, if_neg fun hh => hc hh.2.2.1]

/-- Settles O28: the checks of the operation are those of R105 in their order. -/
theorem sendChecksThenQueues : Obligations.SendChecksThenQueues := by
  intro num d tag c lim body s h run short
  have allowed : lengthAllowed .send ([d, tag, c, lim] ++ body).length = true :=
    (lengthAllowed_iff _ _).2 ⟨by simp, by simp; omega⟩
  refine (exec_taken (r := .send) h allowed (by rw [run]; rfl)).trans (congrArg _ ?_)
  change (ownSend (d :: tag :: c :: lim :: body) s.taken).1.answered .send num
    (ownSend (d :: tag :: c :: lim :: body) s.taken).2 = _
  unfold ownSend
  rw [messageOf_bytes d tag c lim body short]
  by_cases valid : 1 ≤ d.toNat ∧ d.toNat ≤ 62 ∧ c.toNat ≤ 1 ∧ 1 ≤ lim.toNat ∧ lim.toNat ≤ 4 ∧ body ≠ []
  · rw [if_pos valid, if_neg (not_not.2 valid)]
    have active : (!s.taken.stationActive d.toNat) = true ↔ (s.entry d.toNat).state ≠ .active := by
      simp [State.stationActive]
    have reserve : (!s.taken.canReserve) = true ↔
        32 ≤ s.reports.unsent.length + s.reports.sent.length + s.reports.reservations := by
      rw [Bool.not_eq_true']
      exact decide_eq_false_iff_not.trans Nat.not_lt
    have held : s.outbound.find? (fun m => m.tag == tag) = s.message tag := rfl
    rw [held]
    simp only [active, reserve, State.taken_message, State.taken_outbound, Config.messageCapacity]
    split
    · rfl
    · cases s.message tag with
      | some m => rfl
      | none =>
        dsimp only
        split_ifs
        · rfl
        · rfl
        · rfl
        · rfl
  · rw [if_neg valid, if_pos valid]
    rfl

/-- Where tags are distinct, taking away the first message of a tag takes all of them away. -/
theorem eraseP_tag_eq_filter {ms : List Message} (h : (ms.map (·.tag)).Nodup) (x : Byte) :
    (ms.eraseP fun m => m.tag == x) = ms.filter fun m => m.tag != x := by
  induction ms with
  | nil => rfl
  | cons m ms ih =>
    obtain ⟨fresh, rest⟩ := List.nodup_cons.1 h
    by_cases hx : m.tag = x
    · subst hx
      have others : ms.filter (fun y => y.tag != m.tag) = ms :=
        List.filter_eq_self.2 fun y hy => by
          simpa using fun e : y.tag = m.tag => fresh (List.mem_map.2 ⟨y, hy, e⟩)
      simp [others]
    · simp [hx, ih rest]

/-- Settles O29: the message is settled as any outcome settles one. -/
theorem cancelSettlesQueuedMessage : Obligations.CancelSettlesQueuedMessage := by
  intro num tag s h distinct
  refine (exec_taken (r := .cancel) h rfl rfl).trans (congrArg _ ?_)
  change (ownCancel [tag] s.taken).1.answered .cancel num (ownCancel [tag] s.taken).2 = _
  have held : s.outbound.find? (fun m => m.tag == tag) = s.message tag := rfl
  rw [held]
  simp only [ownCancel, List.getD_cons_zero, State.taken_message]
  cases hm : s.message tag with
  | none => rfl
  | some m =>
    obtain ⟨rfl, -⟩ := message_some hm
    dsimp only
    cases m.state with
    | inFlight => rfl
    | queued =>
      dsimp only [accept]
      rw [settleMessage_eq, State.taken_outbound, eraseP_tag_eq_filter distinct]
      rfl

/-! ## ACK_REPORTS, RESEND_REPORTS and SET_LEVEL (R125-R127, R131-R133) -/

/-- R131: no SENT entry carries the number. -/
theorem splitAfter_none {n : Word16} {es : List SentReport} (h : ∀ e ∈ es, e.seq ≠ n) : splitAfter n es = none := by
  induction es with
  | nil => rfl
  | cons e es ih =>
    rw [splitAfter, if_neg (h e List.mem_cons_self), ih fun x hx => h x (List.mem_cons_of_mem _ hx)]
    rfl

/-- R131: the earliest SENT entry that carries the number, and those before it, are taken. -/
theorem splitAfter_append {n : Word16} {pre post : List SentReport} {e : SentReport} (hp : ∀ d ∈ pre, d.seq ≠ n)
    (he : e.seq = n) : splitAfter n (pre ++ e :: post) = some (pre ++ [e], post) := by
  induction pre with
  | nil => simp [splitAfter, he]
  | cons d pre ih =>
    rw [List.cons_append, splitAfter, if_neg (hp d List.mem_cons_self), ih fun x hx => hp x (List.mem_cons_of_mem _ hx)]
    rfl

/-- R191: the number that two bytes spell, as a word. -/
theorem word16_eq_iff (hi lo : Byte) (n : Word16) :
    n = BitVec.ofNat 16 (field16 [hi, lo] 0) ↔ n.toNat = hi.toNat * 256 + lo.toNat := by
  have := hi.isLt
  have := lo.isLt
  rw [← BitVec.toNat_inj, BitVec.toNat_ofNat, field16_head]
  omega

/-- R127: what is done for a waiting OVERFLOW touches the queue and REPORT_LOSS alone, and nothing without a free place. -/
theorem overflowIfDue_serves (s : State) {n : Nat} (hn : s.reports.places = n) :
    overflowIfDue s = { s with reports := (overflowIfDue s).reports, conds := (overflowIfDue s).conds } ∧
      (if 0 < s.reports.lossTally ∧ n < 32 then
        (overflowIfDue s).conds = { s.conds with reportLoss := { s.conds.reportLoss with active := false } } ∧
        (overflowIfDue s).reports = { s.reports with
          lossTally := 0
          unsent := s.reports.unsent ++
            [{ kind := .overflow, level := s.reports.levelOf .overflow, body := be16 s.reports.lossTally
               reserved := false }] }
       else (overflowIfDue s).conds = s.conds ∧ (overflowIfDue s).reports = s.reports) := by
  by_cases due : 0 < s.reports.lossTally ∧ n < 32
  · rw [if_pos due, overflowIfDue_room due.1 (hn ▸ due.2)]
    exact ⟨rfl, rfl, rfl⟩
  · have same : overflowIfDue s = s := by
      unfold overflowIfDue
      split
      · rfl
      · rename_i lost
        exact if_neg fun room => due ⟨Nat.pos_of_ne_zero lost, hn ▸ of_decide_eq_true room⟩
    rw [if_neg due, same]
    exact ⟨rfl, rfl, rfl⟩

/-- Settles O30: the entries that leave are those up to the named one. -/
theorem ackRemovesSentPrefix : Obligations.AckRemovesSentPrefix := by
  intro num hi lo s h
  refine ⟨fun none => ?_, fun pre e post split he hp => ?_⟩
  · refine exec_reads (r := .ackReports) h rfl rfl ?_
    change ownAckReports [hi, lo] s.taken = _
    rw [ownAckReports, State.taken_reports, splitAfter_none fun e he => ?_]
    · rfl
    · exact fun hn => none e he ((word16_eq_iff hi lo e.seq).1 hn)
  · have number := (word16_eq_iff hi lo e.seq).2 he
    have taken := splitAfter_append (post := post) (fun d hd => number ▸ hp d hd) number
    have owner : ownerOf .ackReports [hi, lo] s.taken =
        (overflowIfDue (s.taken.setReports { s.reports with sent := post }), .okWith [byteOf (pre.length + 1)]) := by
      change ownAckReports [hi, lo] s.taken = _
      rw [ownAckReports, State.taken_reports, split, taken]
      simp
    have places : (s.taken.setReports { s.reports with sent := post }).reports.places =
        s.reports.places - (pre.length + 1) := by
      simp only [ReportQueue.places, State.setReports_reports, split, List.length_append, List.length_cons]
      omega
    obtain ⟨others, served⟩ := overflowIfDue_serves (s.taken.setReports { s.reports with sent := post }) places
    refine ⟨overflowIfDue (s.taken.setReports { s.reports with sent := post }), ?_, others, served⟩
    exact (exec_taken (r := .ackReports) h rfl rfl).trans (by rw [owner])

/-- R195: a byte names the kind whose code it is. -/
theorem reportKindOf_some {b : Byte} {k : ReportKind} (h : reportKindOf b = some k) : (reportKindCode k).val = b.toNat := by
  simpa using List.find?_some h

theorem reportKindOf_isSome : ∀ b : Byte, (reportKindOf b).isSome = true ↔ 1 ≤ b.toNat ∧ b.toNat ≤ 21 := by decide

/-- R133: the kinds and levels that SET_LEVEL may set, by the codes. -/
theorem levelAllowed_iff (k : ReportKind) (l : Nat) : levelAllowed k l = true ↔
    4 ≤ (reportKindCode k).val ∧ (reportKindCode k).val ≤ 21 ∧ l ≤ 3 ∧ ¬ ((reportKindCode k).val = 15 ∧ l = 0) := by
  cases k <;> simp [levelAllowed, reportKindCode]

/-- Settles O31: the two requests by their owners, and the raising of a report by the law of `raiseReport`. -/
theorem resendMarksAndLevelsAreSet : Obligations.ResendMarksAndLevelsAreSet := by
  refine ⟨fun num k l s => ⟨fun h => exec_taken (r := .resendReports) h rfl rfl, fun h => ?_⟩, fun k body s => ?_⟩
  · refine (exec_taken (r := .setLevel) h rfl rfl).trans (congrArg _ ?_)
    change (ownSetLevel [k, l] s.taken).1.answered .setLevel num (ownSetLevel [k, l] s.taken).2 = _
    simp only [ownSetLevel, List.getD_cons_zero, field8_succ, field8_zero]
    cases hk : reportKindOf k with
    | none =>
      have unnamed : ¬ (1 ≤ k.toNat ∧ k.toNat ≤ 21) := fun named => by
        simpa [hk] using (reportKindOf_isSome k).2 named
      rw [if_neg (by omega)]
      rfl
    | some x =>
      have code := reportKindOf_some hk
      simp only [levelAllowed_iff, code]
      split
      · rw [levelIndex, code]
        rfl
      · rfl
  · obtain ⟨us, n, c, frame⟩ := raiseReport_frame k body s
    refine ⟨raiseReport_raised k body s, ?_⟩
    change raiseReport k body s = { s with
      reports := (raiseReport k body s).reports
      conds := { s.conds with reportLoss := (raiseReport k body s).conds.reportLoss } }
    rw [frame]

/-! ## CLEAR_CONDITIONS (R141) -/

/-- R139: a byte names the condition whose code it is. -/
theorem conditionOf_eq_some_iff {b : Byte} {n : ConditionName} :
    conditionOf b = some n ↔ b = byteOf (conditionNames.idxOf n) := by
  revert b
  cases n <;> decide

theorem conditionOf_isSome : ∀ b : Byte, (conditionOf b).isSome = true ↔ b.toNat ≤ 5 := by decide

/-- R141: the conditions of a well-formed set, by their codes. -/
theorem mapM_conditionOf {set : List Byte} (h : ∀ b ∈ set, b.toNat ≤ 5) :
    ∃ ns, set.mapM conditionOf = some ns ∧ set = ns.map fun n => byteOf (conditionNames.idxOf n) := by
  induction set with
  | nil => exact ⟨[], rfl, rfl⟩
  | cons b bs ih =>
    obtain ⟨ns, hns, hb⟩ := ih fun x hx => h x (List.mem_cons_of_mem _ hx)
    obtain ⟨n, hn⟩ := Option.isSome_iff_exists.1 ((conditionOf_isSome b).2 (h b List.mem_cons_self))
    refine ⟨n :: ns, by simp [List.mapM_cons, hn, hns], ?_⟩
    rw [List.map_cons, ← hb, ← conditionOf_eq_some_iff.1 hn]

theorem mapM_conditionOf_none {set : List Byte} {b : Byte} (hb : b ∈ set) (h : ¬ b.toNat ≤ 5) : set.mapM conditionOf = none := by
  have unnamed : conditionOf b = none := by
    cases hc : conditionOf b with
    | none => rfl
    | some n => exact absurd ((conditionOf_isSome b).1 (by simp [hc])) h
  induction set with
  | nil => cases hb
  | cons x xs ih =>
    rcases List.mem_cons.1 hb with rfl | hm
    · simp [List.mapM_cons, unnamed]
    · simp [List.mapM_cons, ih hm]

theorem conditionCode_injective : Function.Injective fun n : ConditionName => byteOf (conditionNames.idxOf n) := by
  intro m n
  cases m <;> cases n <;> decide

/-- R141: the named latches of conditions that are not active are cleared, and nothing else. -/
theorem overAll_clearLatch (ns : List ConditionName) (s : State) :
    overAll ns clearLatch s = s.setConds (overAll ns clearLatch s).conds ∧
      ∀ n, ((overAll ns clearLatch s).conds.get n).active = (s.conds.get n).active ∧
        ((overAll ns clearLatch s).conds.get n).latched =
          ((s.conds.get n).latched && !(decide (n ∈ ns) && !(s.conds.get n).active)) := by
  induction ns generalizing s with
  | nil => simp
  | cons m ns ih =>
    obtain ⟨rest, flags⟩ := ih (clearLatch m s)
    have one : clearLatch m s = s.setConds (clearLatch m s).conds ∧ ∀ n, ((clearLatch m s).conds.get n).active = (s.conds.get n).active ∧
        ((clearLatch m s).conds.get n).latched = ((s.conds.get n).latched && !(decide (n = m) && !(s.conds.get n).active)) := by
      unfold clearLatch
      split
      · rename_i active
        refine ⟨rfl, fun n => ⟨rfl, ?_⟩⟩
        by_cases hn : n = m
        · simp [hn, active]
        · simp [hn]
      · rename_i idle
        refine ⟨rfl, fun n => ?_⟩
        by_cases hn : n = m
        · subst hn
          simp [show (s.conds.get n).active = false by simpa using idle]
        · simp [hn]
    refine ⟨?_, fun n => ⟨(flags n).1.trans (one.2 n).1, ?_⟩⟩
    · rw [overAll_cons, rest, one.1]
      rfl
    · rw [overAll_cons, (flags n).2, (one.2 n).1, (one.2 n).2]
      by_cases hn : n = m
      · cases (s.conds.get n).latched <;> cases (s.conds.get n).active <;> simp [hn]
      · simp [hn]

/-- Settles O32: each latch of the set is cleared on its own. -/
theorem clearConditionsClearsIdleLatches : Obligations.ClearConditionsClearsIdleLatches := by
  intro num set s short h
  have allowed : lengthAllowed .clearConditions set.length = true := (lengthAllowed_iff _ _).2 short
  refine ⟨fun malformed => ?_, fun named distinct => ?_⟩
  · refine exec_reads (r := .clearConditions) h allowed rfl ?_
    have none : conditionSetOf set = none := by
      unfold conditionSetOf
      by_cases hall : ∀ b ∈ set, b.toNat ≤ 5
      · obtain ⟨ns, hns, hb⟩ := mapM_conditionOf hall
        rw [hns]
        dsimp only
        rw [if_neg]
        intro hd
        exact malformed ⟨hall, hb ▸ hd.map conditionCode_injective⟩
      · push Not at hall
        obtain ⟨b, hb, big⟩ := hall
        rw [mapM_conditionOf_none hb (by omega)]
    change ownClearConditions set s.taken = _
    rw [ownClearConditions, none]
    rfl
  · obtain ⟨ns, hns, hb⟩ := mapM_conditionOf named
    have some : conditionSetOf set = some ns := by
      rw [conditionSetOf, hns]
      exact if_pos (List.Nodup.of_map _ (hb ▸ distinct))
    obtain ⟨rest, flags⟩ := overAll_clearLatch ns s.taken
    refine ⟨overAll ns clearLatch s.taken, ?_, rest, fun n => ⟨(flags n).1, ?_⟩⟩
    · refine (exec_taken (r := .clearConditions) h allowed rfl).trans (congrArg _ ?_)
      change (ownClearConditions set s.taken).1.answered _ _ (ownClearConditions set s.taken).2 = _
      rw [ownClearConditions, some]
    · rw [(flags n).2, State.taken_conds, hb]
      simp [List.mem_map_of_injective conditionCode_injective]

end Sys2Proof.Machine
end

section
/-! PROOFS. CONFIGURE (R2-R4). -/

-- One theorem after another: theorems checked side by side would each hold a thread.
set_option Elab.async false

namespace Sys2Proof.Machine

variable {s t : State}

/-! ## The entries of a CONFIGURE (R3) -/

/-- R191, R193: the entries of a list are read back from its bytes. -/
theorem configEntries_configure {es : List (Nat × Nat)} (h : ∀ e ∈ es, e.1 < 256 ∧ e.2 < 65536) :
    configEntries (Wire.configure es) = es := by
  induction es with
  | nil => rfl
  | cons e es ih =>
    obtain ⟨small, value⟩ := h e List.mem_cons_self
    have bytes : ofBytes (be16 e.2) = e.2 := by rw [ofBytes_be16, Nat.mod_eq_of_lt value]
    have rest : configEntries (Wire.configure es) = es := ih fun x hx => h x (List.mem_cons_of_mem _ hx)
    change ((byteOf e.1).toNat, ofBytes (be16 e.2)) :: configEntries (Wire.configure es) = _
    rw [toNat_byteOf small, bytes, rest]

/-- R2: the numbers and values that name a parameter in its range fit one byte and two. -/
theorem ParamAllowed.fits {n v : Nat} (h : ParamAllowed n v) : 1 ≤ n ∧ n ≤ 8 ∧ v < 65536 := by
  unfold ParamAllowed at h
  omega

/-- R3 pass 1: the entries before the first bad one are passed over. -/
theorem firstBadEntry_append {pre : List (Nat × Nat)} {seen : List Nat} (position : Nat) (es : List (Nat × Nat))
    (allowed : ∀ e ∈ pre, ParamAllowed e.1 e.2) (distinct : (pre.map (·.1)).Nodup) (fresh : ∀ e ∈ pre, e.1 ∉ seen) :
    firstBadEntry position seen (pre ++ es) =
      firstBadEntry (position + pre.length) ((pre.map (·.1)).reverse ++ seen) es := by
  induction pre generalizing position seen with
  | nil => rfl
  | cons e pre ih =>
    obtain ⟨other, distinct⟩ := List.nodup_cons.1 distinct
    have passes : (paramInRange e.1 e.2 && !seen.contains e.1) = true := by
      simp [(paramInRange_iff e.1 e.2).2 (allowed e List.mem_cons_self), fresh e List.mem_cons_self]
    rw [List.cons_append, firstBadEntry, if_pos passes, ih (position + 1) (fun x hx => allowed x (List.mem_cons_of_mem _ hx))
      distinct fun x hx => ?_]
    · simp [Nat.add_left_comm, Nat.add_comm]
    · intro hm
      rcases List.mem_cons.1 hm with same | seen
      · exact other (List.mem_map.2 ⟨x, hx, same⟩)
      · exact fresh x (List.mem_cons_of_mem _ hx) seen

/-- R3 pass 1: no entry is bad. -/
theorem firstBadEntry_none {position : Nat} {seen : List Nat} {es : List (Nat × Nat)}
    (h : firstBadEntry position seen es = none) :
    (∀ e ∈ es, ParamAllowed e.1 e.2) ∧ (es.map (·.1)).Nodup ∧ ∀ e ∈ es, e.1 ∉ seen := by
  induction es generalizing position seen with
  | nil => simp
  | cons e es ih =>
    rw [firstBadEntry] at h
    split at h
    · rename_i passes
      obtain ⟨range, fresh⟩ := Bool.and_eq_true_iff.1 passes
      obtain ⟨allowed, distinct, others⟩ := ih h
      refine ⟨List.forall_mem_cons.2 ⟨(paramInRange_iff _ _).1 range, allowed⟩, ?_,
        List.forall_mem_cons.2 ⟨by simpa using fresh, fun x hx hm => others x hx (List.mem_cons_of_mem _ hm)⟩⟩
      refine List.nodup_cons.2 ⟨fun hm => ?_, distinct⟩
      obtain ⟨x, hx, he⟩ := List.mem_map.1 hm
      exact others x hx (he ▸ List.mem_cons_self)
    · cases h

theorem foldl_max_le_iff {xs : List Nat} {a n : Nat} : xs.foldl max a ≤ n ↔ a ≤ n ∧ ∀ x ∈ xs, x ≤ n := by
  induction xs generalizing a with
  | nil => simp
  | cons x xs ih => simp [ih, and_assoc]

/-- R3: the largest offset held bounds every slot's. -/
theorem largestOffset_le_iff {n : Nat} :
    largestOffset s ≤ n ↔ ∀ x ∈ s.sched.active ++ s.sched.shadow, x.offset ≤ n := by
  unfold largestOffset
  rw [foldl_max_le_iff]
  simp only [Nat.zero_le, true_and, List.forall_mem_map]

/-! ## The parameters applied (R4, R170, R184) -/

theorem rateNumber_injective : Function.Injective rateNumber := by
  intro x y
  cases x <;> cases y <;> simp [rateNumber]

/-- R2, R4: the parameter that an entry names takes the entry's value, and no other changes. -/
theorem applyParam_value {n v : Nat} (h : ParamAllowed n v) (m : Nat) (s : State) :
    (applyParam n v s).sched.params.value m = if m = n then v else s.sched.params.value m := by
  have rate : ∀ r : BitRate, (changeBitRate r s).sched.params = { s.sched.params with rate := r } := fun r => by
    unfold changeBitRate
    split
    · rename_i same
      rw [← same]
    · rfl
  rcases h with ⟨rfl, h⟩ | ⟨rfl, h⟩ | ⟨rfl, h⟩ | ⟨rfl, h⟩ | ⟨rfl, h⟩ | ⟨rfl, h⟩ | ⟨rfl, h⟩ | ⟨rfl, h⟩
  case inr.inr.inr.inl =>
    simp only [applyParam, rate]
    unfold Params.value
    rcases h with rfl | rfl <;> split <;> simp_all [rateNumber]
  case inr.inr.inr.inr.inr.inr.inl =>
    simp only [applyParam, State.setSched_sched]
    unfold Params.value
    rcases h with rfl | rfl <;> split <;> simp_all [admissionNumber]
  all_goals
    simp only [applyParam, State.setSched_sched, State.setLink_sched]
    unfold Params.value
    split <;> simp_all

/-- R170: the line unit as a change of the bit rate leaves it at an instant. -/
def SegmentLine.retimed (l : SegmentLine) (now : Nat) : SegmentLine :=
  { l with
    receiver := if l.receiver.frame.isSome then .drain else l.receiver
    activity := .active, lastTransition := now, lastEndDelimiter := now, activeSince := now }

/-- R4: what the applying of parameters leaves: the parameters take new values, a hold time restarts the silence timer, and a
change of the bit rate retimes the line unit. -/
structure Applied (named : Nat → Prop) [DecidablePred named] (s t : State) : Prop where
  kept : ∀ n, ¬ named n → t.sched.params.value n = s.sched.params.value n
  rest : t = { s with
    sched := { s.sched with params := t.sched.params }
    link := { s.link with silenceStart := if named 8 then s.now else s.link.silenceStart }
    seg := if t.sched.params.rate = s.sched.params.rate then s.seg else s.seg.retimed s.now }

theorem applyParam_applied {n v : Nat} (h : ParamAllowed n v) (s : State) : Applied (· = n) s (applyParam n v s) := by
  refine ⟨fun m hm => by rw [applyParam_value h, if_neg hm], ?_⟩
  rcases h with ⟨rfl, h⟩ | ⟨rfl, h⟩ | ⟨rfl, h⟩ | ⟨rfl, h⟩ | ⟨rfl, h⟩ | ⟨rfl, h⟩ | ⟨rfl, h⟩ | ⟨rfl, h⟩
  case inr.inr.inr.inl =>
    unfold applyParam changeBitRate
    generalize (if v = 160 then BitRate.k160 else BitRate.k40) = r
    by_cases same : s.sched.params.rate = r
    · simp [same]
    · simp [same, Ne.symm same, State.setSched, State.setSeg, SegmentLine.retimed, Receiver.giveUp]
  all_goals simp [applyParam, State.setSched, State.setLink]

theorem Applied.trans {p q : Nat → Prop} [DecidablePred p] [DecidablePred q] {u : State} (h : Applied p s t)
    (k : Applied q t u) (apart : ∀ n, p n → ¬ q n) : Applied (fun n => p n ∨ q n) s u := by
  refine ⟨fun n hn => ?_, ?_⟩
  · obtain ⟨hp, hq⟩ := not_or.1 hn
    rw [k.kept n hq, h.kept n hp]
  · have rate : t.sched.params.rate = s.sched.params.rate ∨ u.sched.params.rate = t.sched.params.rate := by
      by_cases hp : p 4
      · exact .inr (rateNumber_injective (k.kept 4 (apart 4 hp)))
      · exact .inl (rateNumber_injective (h.kept 4 hp))
    have now : t.now = s.now := by rw [h.rest]
    have seg : t.seg = if t.sched.params.rate = s.sched.params.rate then s.seg else s.seg.retimed s.now := by
      conv_lhs => rw [h.rest]
    have silence : t.link = { s.link with silenceStart := if p 8 then s.now else s.link.silenceStart } := by
      conv_lhs => rw [h.rest]
    have others : t = { s with sched := { s.sched with params := t.sched.params }, link := t.link, seg := t.seg } := by
      conv_lhs => rw [h.rest, ← silence, ← seg]
    have line : (if u.sched.params.rate = t.sched.params.rate then t.seg else t.seg.retimed t.now) =
        if u.sched.params.rate = s.sched.params.rate then s.seg else s.seg.retimed s.now := by
      rcases rate with same | same
      · rw [seg, now, same, if_pos rfl]
      · rw [if_pos same, seg, same]
    have timer : ({ t.link with silenceStart := if q 8 then t.now else t.link.silenceStart } : HostLink) =
        { s.link with silenceStart := if p 8 ∨ q 8 then s.now else s.link.silenceStart } := by
      rw [silence, now]
      by_cases hp : p 8 <;> by_cases hq : q 8 <;> simp [hp, hq]
    calc u = { t with
          sched := { t.sched with params := u.sched.params }
          link := { t.link with silenceStart := if q 8 then t.now else t.link.silenceStart }
          seg := if u.sched.params.rate = t.sched.params.rate then t.seg else t.seg.retimed t.now } := k.rest
      _ = _ := by
        rw [line, timer]
        conv_lhs => rw [others]

theorem Applied.congr {p q : Nat → Prop} [DecidablePred p] [DecidablePred q] (h : Applied p s t) (same : ∀ n, p n ↔ q n) :
    Applied q s t := by
  have rest := h.rest
  simp only [same 8] at rest
  exact ⟨fun n hn => h.kept n fun hp => hn ((same n).1 hp), rest⟩

/-- R3, R4: entries in range, no two of one parameter, are all applied. -/
theorem applyParams_applied {es : List (Nat × Nat)} (allowed : ∀ e ∈ es, ParamAllowed e.1 e.2)
    (distinct : (es.map (·.1)).Nodup) (s : State) :
    Applied (· ∈ es.map (·.1)) s (applyParams es s) ∧
      ∀ e ∈ es, (applyParams es s).sched.params.value e.1 = e.2 := by
  induction es generalizing s with
  | nil => exact ⟨⟨fun _ _ => rfl, by simp [applyParams]⟩, by simp⟩
  | cons e es ih =>
    obtain ⟨fresh, distinct⟩ := List.nodup_cons.1 distinct
    have range := allowed e List.mem_cons_self
    obtain ⟨rest, values⟩ := ih (fun x hx => allowed x (List.mem_cons_of_mem _ hx)) distinct (applyParam e.1 e.2 s)
    have both := (applyParam_applied range s).trans rest fun n hn => hn ▸ fresh
    refine ⟨both.congr fun n => by simp, List.forall_mem_cons.2 ⟨?_, values⟩⟩
    refine (rest.kept e.1 fresh).trans ?_
    rw [applyParam_value range, if_pos rfl]

theorem length_configure (es : List (Nat × Nat)) : (Wire.configure es).length = 3 * es.length := by
  induction es with
  | nil => rfl
  | cons e es ih =>
    have : (Wire.configure (e :: es)).length = 3 + (Wire.configure es).length := by
      simp [Wire.configure]
      omega
    rw [this, ih, List.length_cons]
    omega

/-- R2: entries that name no parameter twice are no more than the parameters. -/
theorem length_le_eight {es : List (Nat × Nat)} (allowed : ∀ e ∈ es, ParamAllowed e.1 e.2)
    (distinct : (es.map (·.1)).Nodup) : es.length ≤ 8 := by
  have sub : (es.map (·.1)).Subperm (List.range' 1 8) := List.subperm_of_subset distinct fun n hn => by
    obtain ⟨e, he, rfl⟩ := List.mem_map.1 hn
    have := (allowed e he).fits
    exact List.mem_range'_1.2 ⟨this.1, by omega⟩
  simpa using sub.length_le

/-- R3: the payload of a list of entries has a length that CONFIGURE allows. -/
theorem configure_allowed {es : List (Nat × Nat)} (h : es.length ≤ 64) :
    lengthAllowed .configure (Wire.configure es).length = true :=
  (lengthAllowed_iff _ _).2 (by rw [length_configure]; exact ⟨by omega, by omega⟩)

/-- Settles O11: the entries are applied one after the other, and only the rate and the hold time reach beyond them. -/
theorem configureAppliesAllEntries : Obligations.ConfigureAppliesAllEntries := by
  intro num es s h config allowed distinct above
  have short := length_le_eight allowed distinct
  have entries : configEntries (Wire.configure es) = es :=
    configEntries_configure fun e he => ⟨by have := (allowed e he).fits; omega, (allowed e he).fits.2.2⟩
  have sound : firstBadEntry 1 [] es = none := by
    simpa [firstBadEntry] using firstBadEntry_append (seen := []) 1 [] allowed distinct (by simp)
  have owner : ownerOf .configure (Wire.configure es) s.taken = accept (applyParams es s.taken) := by
    change ownConfigure (Wire.configure es) s.taken = _
    unfold ownConfigure
    rw [entries]
    dsimp only
    rw [sound]
    dsimp only
    split
    · rename_i e he
      have first : e.1 = 1 := by simpa using List.find?_some he
      rw [if_neg]
      intro low
      have here := List.mem_of_find?_eq_some he
      have range : 50 ≤ e.2 := by
        have := allowed e here
        unfold ParamAllowed at this
        omega
      have below : largestOffset s.taken ≤ e.2 - 1 :=
        largestOffset_le_iff.2 fun x hx => Nat.le_sub_one_of_lt (above e here first x hx)
      omega
    · rfl
  obtain ⟨applied, values⟩ := applyParams_applied allowed distinct s.taken
  refine ⟨applyParams es s.taken, exec_accepts (r := .configure) h (configure_allowed (by omega)) (by rw [config]; rfl) owner,
    values, applied.kept, applied.rest⟩

/-- Settles O12: the first bad entry, or the largest offset, ends the request before anything is applied. -/
theorem configureRefusesBadLists : Obligations.ConfigureRefusesBadLists := by
  intro num es s h config short fits
  have entries := configEntries_configure fits
  refine ⟨fun pre e post split allowed distinct bad => ?_, fun allowed distinct e he first x hx largest low => ?_⟩
  · refine exec_reads (r := .configure) h (configure_allowed short) (by rw [config]; rfl) ?_
    change ownConfigure (Wire.configure es) s.taken = _
    have found : firstBadEntry 1 [] es = some (pre.length + 1) := by
      rw [split, firstBadEntry_append 1 _ allowed distinct (by simp), firstBadEntry, if_neg, Nat.add_comm]
      simp only [List.append_nil, Bool.and_eq_true, paramInRange_iff, Bool.not_eq_true', List.contains_reverse]
      rcases bad with range | named
      · exact fun hh => range hh.1
      · exact fun hh => by simp [named] at hh
    unfold ownConfigure
    rw [entries]
    dsimp only
    rw [found]
  · refine exec_reads (r := .configure) h (configure_allowed short) (by rw [config]; rfl) ?_
    change ownConfigure (Wire.configure es) s.taken = _
    have sound : firstBadEntry 1 [] es = none := by
      simpa [firstBadEntry] using firstBadEntry_append (seen := []) 1 [] allowed distinct (by simp)
    have period : es.find? (fun e => e.1 == 1) = some e := by
      cases found : es.find? (fun e => e.1 == 1) with
      | none => exact absurd first (by simpa using List.find?_eq_none.1 found e he)
      | some d =>
        have number : d.1 = 1 := by simpa using List.find?_some found
        rw [List.inj_on_of_nodup_map distinct (List.mem_of_find?_eq_some found) he (number.trans first.symm)]
    have offset : largestOffset s.taken = x.offset :=
      Nat.le_antisymm (largestOffset_le_iff.2 largest) (largestOffset_le_iff.1 le_rfl x hx)
    unfold ownConfigure
    rw [entries]
    dsimp only
    rw [sound, period]
    dsimp only
    rw [offset, if_pos low]

end Sys2Proof.Machine
end

section
/-! PROOFS. Happenings at the points of the cache as a whole (R77, R78, R82-R86), and the requests that bring them about. -/

-- One theorem after another: theorems checked side by side would each hold a thread.
set_option Elab.async false

namespace Sys2Proof.Machine

variable {s t u : State}

/-! ## A happening at every point (R83-R86) -/

/-- Every point has become what `g` makes of it, with the POINT_CHANGED reports that asks for and the mirrored lines following;
beyond these nothing has changed. -/
structure PointsBecome (g : Point → Point) (s t : State) : Prop where
  cache : CacheOnly s t
  points : t.points = s.points.map g
  raised : RaisedExactly (changeReports g s.points) s t
  follow : MirrorsFollow s t

/-- R83: a happening that leaves a point as it is asks for no report. -/
theorem changeReports_same {g : Point → Point} {ps : List Point} (h : ∀ p ∈ ps, g p = p) : changeReports g ps = [] := by
  refine List.filterMap_eq_nil_iff.2 fun p hp => ?_
  rw [h p hp]
  simp

theorem changeReports_congr {f g : Point → Point} {ps : List Point} (h : ∀ p ∈ ps, f p = g p) :
    changeReports f ps = changeReports g ps :=
  List.filterMap_congr fun p hp => by rw [h p hp]

theorem MirrorsFollow.refl (s : State) : MirrorsFollow s s := by
  intro i l _
  refine ⟨fun p q hp hq changed => ?_, fun _ => ⟨rfl, rfl⟩⟩
  cases hp.symm.trans hq
  simp at changed

theorem PointsBecome.same {g : Point → Point} (h : ∀ p ∈ s.points, g p = p) : PointsBecome g s s where
  cache := .refl s
  points := (List.map_congr_left h).symm ▸ (List.map_id'' (fun _ => rfl) _).symm
  raised := by
    rw [changeReports_same h]
    exact .none rfl rfl
  follow := .refl s

/-- R83: the reports of a happening at some of the points are those of all points where the others stay as they are. -/
theorem changeReports_filter {f g : Point → Point} {sel : Point → Bool} {ps : List Point}
    (chosen : ∀ p ∈ ps, sel p = true → g p = f p) (others : ∀ p ∈ ps, sel p = false → g p = p) :
    changeReports f (ps.filter sel) = changeReports g ps := by
  induction ps with
  | nil => rfl
  | cons p ps ih =>
    have rest := ih (fun x hx => chosen x (List.mem_cons_of_mem _ hx)) fun x hx => others x (List.mem_cons_of_mem _ hx)
    rw [changeReports_cons g p ps]
    cases h : sel p with
    | true =>
      have here := chosen p List.mem_cons_self h
      rw [List.filter_cons_of_pos h, changeReports_cons, rest]
      rw [changeReports_congr (f := g) (g := f) (ps := [p]) (by simpa using here)]
    | false =>
      rw [List.filter_cons_of_neg (by simp [h]), rest,
        changeReports_same (g := g) (ps := [p]) (by simpa using others p List.mem_cons_self h), List.nil_append]

/-- R77, R78, R82: one happening at the points that a condition picks. -/
theorem changePoints_become {f g : Point → Point} {sel : Point → Bool} (hd : s.keysDistinct)
    (keys : ∀ p, (f p).key = p.key) (chosen : ∀ p ∈ s.points, sel p = true → g p = f p)
    (others : ∀ p ∈ s.points, sel p = false → g p = p) :
    PointsBecome g s (changePoints f (s.points.filter sel) s) := by
  have held : ∀ p ∈ s.points.filter sel, p ∈ s.points := fun p hp => (List.mem_filter.1 hp).1
  have distinct : ((s.points.filter sel).map (·.key)).Nodup := (List.filter_sublist.map _).nodup hd
  obtain ⟨cache, points⟩ := changePoints_cacheOnly f (s.points.filter sel) s keys hd held distinct
  refine ⟨cache, points.trans (List.map_congr_left fun p hp => ?_), ?_, changePoints_follow f _ s keys hd held distinct⟩
  · cases h : sel p with
    | true => rw [if_pos (List.mem_filter.2 ⟨hp, h⟩), chosen p hp h]
    | false => rw [if_neg (fun hm => by simp [h] at hm), others p hp h]
  · rw [← changeReports_filter chosen others]
    exact changePoints_raised f _ s

/-- R77, R82: one happening at every point. -/
theorem changePoints_all {f : Point → Point} (hd : s.keysDistinct) (keys : ∀ p, (f p).key = p.key) :
    PointsBecome f s (changePoints f s.points s) := by
  have := changePoints_become (g := f) (sel := fun _ => true) hd keys (fun _ _ _ => rfl) (by simp)
  rwa [List.filter_true] at this

/-- R78: the publisher of a point becomes ACTIVE. -/
def Point.sourced (mode : Mode) (a : Nat) (p : Point) : Point :=
  if mode = .run ∧ p.key.address = a ∧ p.quality = .noSource then { p with quality := .never } else p

/-- R78: the publisher of a point leaves ACTIVE. -/
def Point.unsourced (mode : Mode) (a : Nat) (p : Point) : Point :=
  if mode = .run ∧ p.key.address = a ∧ p.quality ≠ .offline then { p with quality := .noSource } else p

theorem publisherActive_becomes (a : Nat) (hd : s.keysDistinct) :
    PointsBecome (Point.sourced s.sched.mode a) s (publisherActive a s) := by
  unfold publisherActive
  split
  · rename_i run
    refine changePoints_become hd (fun p => by split <;> rfl) (fun p _ hp => ?_) fun p _ hp => ?_
    · have address : p.key.address = a := by simpa using hp
      simp [Point.sourced, run, address, Point.withQuality]
    · have address : p.key.address ≠ a := by simpa using hp
      simp [Point.sourced, address]
  · rename_i stopped
    exact .same fun p _ => by simp [Point.sourced, stopped]

theorem publisherGone_becomes (a : Nat) (hd : s.keysDistinct) :
    PointsBecome (Point.unsourced s.sched.mode a) s (publisherGone a s) := by
  unfold publisherGone
  split
  · rename_i run
    refine changePoints_become hd (fun p => by split <;> rfl) (fun p _ hp => ?_) fun p _ hp => ?_
    · have address : p.key.address = a := by simpa using hp
      simp only [Point.unsourced, run, address, Point.withQuality, true_and, ne_eq, ite_not]
    · have address : p.key.address ≠ a := by simpa using hp
      simp [Point.unsourced, address]
  · rename_i stopped
    exact .same fun p _ => by simp [Point.unsourced, stopped]

/-! ## What the statements say of reports and mirrored lines depends on few pieces -/

/-- R125: what has been raised is a matter of the queue and the conditions. -/
theorem RaisedExactly.congr {rs : List (ReportKind × List Byte)} {s' t' : State} (h : RaisedExactly rs s t)
    (hr : s'.reports = s.reports) (hc : s'.conds = s.conds) (tr : t'.reports = t.reports) (tc : t'.conds = t.conds) :
    RaisedExactly rs s' t' := by
  obtain ⟨reports, loss⟩ := raising_congr rs hr (by rw [hc])
  exact ⟨by rw [tr, h.reports, reports], by rw [tc, h.conds, hc, loss]⟩

/-- R125, R138: what has been raised, of a condition that another happening changes. -/
theorem RaisedExactly.withForeign {rs : List (ReportKind × List Byte)} {s' t' : State} {c : Condition}
    (h : RaisedExactly rs s t) (hr : s'.reports = s.reports) (tr : t'.reports = t.reports)
    (hc : s'.conds = { s.conds with foreign := c }) (tc : t'.conds = { t.conds with foreign := c }) :
    RaisedExactly rs s' t' := by
  obtain ⟨reports, loss⟩ := raising_congr rs hr (by rw [hc])
  refine ⟨by rw [tr, h.reports, reports], ?_⟩
  rw [tc, h.conds, hc, loss]

theorem MirrorsOnly.congr {s' t' : State} (h : MirrorsOnly s t) (hs : s'.lines = s.lines) (ht : t'.lines = t.lines) :
    MirrorsOnly s' t' := by
  unfold MirrorsOnly at h ⊢
  rwa [hs, ht]

theorem MirrorsFollow.congr {s' t' : State} (h : MirrorsFollow s t) (hs : s'.lines = s.lines) (hp : s'.points = s.points)
    (ht : t'.lines = t.lines) (tp : t'.points = t.points) : MirrorsFollow s' t' := by
  unfold MirrorsFollow State.point at h ⊢
  rwa [hs, ht, hp, tp]

/-- R125: one report more is raised. -/
theorem RaisedExactly.snoc {rs : List (ReportKind × List Byte)} (h : RaisedExactly rs s t) (k : ReportKind)
    (body : List Byte) : RaisedExactly (rs ++ [(k, body)]) s (raiseReport k body t) :=
  h.trans (.one k body t)

/-! ## START and STOP (R5, R6, R77) -/

/-- Settles O13: every point takes one happening, which is NO_SOURCE. -/
theorem startEntersRun : Obligations.StartEntersRun := by
  intro num s h config distinct
  have become : PointsBecome (Point.withQuality .noSource) (s.taken.setRoster { s.taken.roster with probePointer := 1 }) _ :=
    changePoints_all distinct fun _ => rfl
  refine ⟨startCycle s.taken, exec_accepts (r := .start) h rfl (by rw [config]; rfl) rfl,
    become.raised.congr rfl rfl rfl rfl, become.cache.mirrors.congr rfl rfl, become.follow.congr rfl rfl rfl rfl, ?_⟩
  have rest := become.cache.rest
  rw [become.points] at rest
  unfold startCycle
  dsimp only [State.taken_points, State.setRoster_points] at rest ⊢
  rw [rest]
  rfl

/-- R40: FOREIGN ends by time when 100 ms have passed since the last sighting. -/
theorem evaluateForeign_eq (s : State) : evaluateForeign s = { s with
    conds := { s.conds with foreign := { s.conds.foreign with
      active := s.conds.foreign.active &&
        !decide (∃ f, s.txn.lastForeign = some f ∧ f + 1024000 ≤ s.now) } } } := by
  have keeps : ∀ b, b = s.conds.foreign.active →
      s = { s with conds := { s.conds with foreign := { s.conds.foreign with active := b } } } := fun _ h => h ▸ rfl
  unfold evaluateForeign
  split
  · rename_i f hf
    have expiry : foreignExpiryAt f = f + 1024000 := rfl
    rw [expiry, hf]
    split
    · rename_i expires
      obtain ⟨active, passed⟩ := Bool.and_eq_true_iff.1 expires
      simp [of_decide_eq_true passed, deactivate, State.setConds, ConditionSet.put, ConditionSet.get]
    · rename_i stands
      refine keeps _ ?_
      cases active : s.conds.foreign.active with
      | false => rfl
      | true =>
        have : ¬ f + 1024000 ≤ s.now := by simpa [active] using stands
        simp [this]
  · rename_i none
    exact keeps _ (by simp [none])

/-- Settles O14: every point takes one happening, which is OFFLINE, and FOREIGN is then judged by time. -/
theorem stopEntersStopping : Obligations.StopEntersStopping := by
  intro num s h run distinct
  have become : PointsBecome (Point.withQuality .offline)
      (s.taken.setSched { s.taken.sched with mode := .stopping, markWaiting := false, waiting := [] }) _ :=
    changePoints_all distinct fun _ => rfl
  generalize hc : changePoints (Point.withQuality .offline) _ _ = offline at become
  have stop : stopCycle s.taken = evaluateForeign offline := congrArg evaluateForeign hc
  have rest := become.cache.rest
  have conds := become.raised.conds
  have now : offline.now = s.now := by rw [rest]; rfl
  have last : offline.txn = s.txn := by rw [rest]; rfl
  rw [evaluateForeign_eq, now, last, conds] at stop
  refine ⟨stopCycle s.taken, exec_accepts (r := .stop) h rfl (by rw [run]; rfl) rfl, ?_, ?_, ?_, ?_, ?_⟩
  · refine become.raised.withForeign (c := (stopCycle s.taken).conds.foreign) rfl (by rw [stop]) rfl ?_
    rw [stop, conds]
  · rw [stop]
    exact become.cache.mirrors.congr rfl rfl
  · rw [stop]
    exact become.follow.congr rfl rfl rfl rfl
  · rw [stop]
    rfl
  · rw [become.points] at rest
    rw [stop, rest]
    rfl

end Sys2Proof.Machine
end

section
/-! PROOFS. A station that joins (R53, R60) and one that is lost (R58, R59, R61). -/

-- One theorem after another: theorems checked side by side would each hold a thread.
set_option Elab.async false

namespace Sys2Proof.Machine

variable {s t u : State}

/-! ## Entries and points -/

@[simp] theorem setEntry_points (s : State) (a : Nat) (e : RosterEntry) : (s.setEntry a e).points = s.points := by
  rw [setEntry_frame]

@[simp] theorem setEntry_sched (s : State) (a : Nat) (e : RosterEntry) : (s.setEntry a e).sched = s.sched := by
  rw [setEntry_frame]

@[simp] theorem setEntry_reports (s : State) (a : Nat) (e : RosterEntry) : (s.setEntry a e).reports = s.reports := by
  rw [setEntry_frame]

@[simp] theorem setEntry_conds (s : State) (a : Nat) (e : RosterEntry) : (s.setEntry a e).conds = s.conds := by
  rw [setEntry_frame]

@[simp] theorem setEntry_lines (s : State) (a : Nat) (e : RosterEntry) : (s.setEntry a e).lines = s.lines := by
  rw [setEntry_frame]

@[simp] theorem raiseReport_lines (k : ReportKind) (body : List Byte) (s : State) :
    (raiseReport k body s).lines = s.lines := (raiseReport_touches s k body).same .lines (by simp)

theorem setEntry_setEntry (s : State) (a : Nat) (e f : RosterEntry) : (s.setEntry a e).setEntry a f = s.setEntry a f := by
  unfold State.setEntry
  split
  · rfl
  · simp [State.setRoster]

/-- R53, R78: a station that becomes ACTIVE: its points leave NO_SOURCE, then DEVICE_JOINED is raised. -/
theorem becomeActive_becomes (a : Nat) (i : Identity) (rejoin admitted : Bool) (hd : s.keysDistinct) :
    ∃ u, PointsBecome (Point.sourced s.sched.mode a)
        (s.setEntry a { s.entry a with
          state := .active, seen := some i, miss := 0, clash := 0
          lastHeard := if admitted then (s.entry a).lastHeard else some s.sched.cycle }) u ∧
      becomeActive a i rejoin admitted s =
        raiseReport .deviceJoined ([byteOf a] ++ identityBytes i ++ [flagByte rejoin, flagByte admitted]) u := by
  refine ⟨_, ?_, rfl⟩
  have := publisherActive_becomes (s := s.setEntry a { s.entry a with
    state := .active, seen := some i, miss := 0, clash := 0
    lastHeard := if admitted then (s.entry a).lastHeard else some s.sched.cycle }) a (by
      unfold State.keysDistinct
      rwa [setEntry_points])
  rwa [setEntry_sched] at this

/-- Raising one report more leaves what has become of the points and the lines. -/
theorem PointsBecome.rest_raise {g : Point → Point} (h : PointsBecome g s t) (k : ReportKind) (body : List Byte) :
    raiseReport k body t = { s with
      points := s.points.map g, reports := (raiseReport k body t).reports, conds := (raiseReport k body t).conds
      lines := (raiseReport k body t).lines } := by
  obtain ⟨us, n, c, frame⟩ := raiseReport_frame k body t
  have rest := h.cache.rest
  rw [h.points] at rest
  rw [frame]
  conv_lhs => rw [rest]

/-- Settles O20: ADMIT is a station that becomes ACTIVE with its seen identity expected. -/
theorem admitMakesHeldActive : Obligations.AdmitMakesHeldActive := by
  intro num b s h
  have owner : ownerOf .admitStation [b] s.taken = forAddress [b] admitEntry s.taken := rfl
  refine ⟨fun out => ?_, fun low high other => ?_, fun i low high held seen distinct => ?_⟩
  · refine exec_reads (r := .admitStation) h rfl rfl ?_
    rw [owner, forAddress_eq b [] admitEntry, if_neg (by omega)]
    rfl
  · refine exec_reads (r := .admitStation) h rfl rfl ?_
    rw [owner, forAddress_eq b [] admitEntry, if_pos ⟨low, high⟩]
    unfold admitEntry
    rw [State.taken_entry]
    split
    · rename_i held _
      exact absurd held other
    · rfl
  · have expects : (s.taken.setEntry b.toNat { s.entry b.toNat with expected := some i }).entry b.toNat =
        { s.entry b.toNat with expected := some i } := by
      rw [entry_setEntry, if_pos ⟨rfl, low, high⟩]
    obtain ⟨u, become, joined⟩ := becomeActive_becomes (s := s.taken.setEntry b.toNat
      { s.entry b.toNat with expected := some i }) b.toNat i false true (by
        unfold State.keysDistinct
        rwa [setEntry_points])
    rw [expects, setEntry_setEntry, setEntry_sched, setEntry_taken] at become
    have accepted : ownerOf .admitStation [b] s.taken = accept (raiseReport .deviceJoined
        ([byteOf b.toNat] ++ identityBytes i ++ [flagByte false, flagByte true]) u) := by
      rw [owner, forAddress_eq b [] admitEntry, if_pos ⟨low, high⟩]
      unfold admitEntry
      rw [State.taken_entry, held, seen, ← joined]
    have byte : byteOf b.toNat = b := by simp [byteOf]
    rw [byte] at accepted
    refine ⟨_, exec_accepts (r := .admitStation) h rfl rfl accepted, ?_, ?_, ?_, ?_⟩
    · exact (become.raised.snoc .deviceJoined _).congr rfl rfl rfl rfl
    · exact become.cache.mirrors.congr rfl (raiseReport_lines _ _ _)
    · exact become.follow.congr rfl rfl (raiseReport_lines _ _ _) (raiseReport_points _ _ _)
    · exact become.rest_raise _ _

/-! ## Messages that end together (R111, R112) -/

/-- R111: with distinct tags, a settled message is the only one that leaves. -/
theorem settleMessage_settling (m : Message) (o : MessageOutcome) (extra : List Byte) (hd : s.tagsDistinct) :
    settleMessage m o extra s = s.settling [m] (messageOutcomeCode o) extra := by
  rw [settleMessage_eq, eraseP_tag_eq_filter hd]
  unfold State.settling
  congr 1
  refine List.filter_congr fun x _ => ?_
  simp only [bne, List.map_cons, List.map_nil, List.contains_cons, List.contains_nil, Bool.or_false]

theorem settling_tags (ms : List Message) (o : Byte) (extra : List Byte) (hd : s.tagsDistinct) :
    (s.settling ms o extra).tagsDistinct := (List.filter_sublist.map _).nodup hd

/-- R111: messages that end one after the other. -/
theorem settling_settling (xs ys : List Message) (o : Byte) (extra : List Byte) :
    (s.settling xs o extra).settling ys o extra = s.settling (xs ++ ys) o extra := by
  unfold State.settling
  have tags : (s.outbound.filter fun x => !(xs.map (·.tag)).contains x.tag).filter
      (fun x => !(ys.map (·.tag)).contains x.tag) =
      s.outbound.filter fun x => !((xs ++ ys).map (·.tag)).contains x.tag := by
    rw [List.filter_filter]
    refine List.filter_congr fun x _ => ?_
    simp [Bool.and_comm]
  simp only [tags, List.map_append, List.append_assoc, List.length_append, Nat.sub_sub]
  rfl

/-- R112: marking messages and settling others do not bear on each other. -/
theorem changeMessage_settling (x : Byte) (f : Message → Message) (ms : List Message) (hf : ∀ m, (f m).tag = m.tag)
    {o : Byte} {extra : List Byte} :
    (changeMessage x f s).settling ms o extra = changeMessage x f (s.settling ms o extra) := by
  have tags : ∀ m : Message, (if m.tag = x then f m else m).tag = m.tag := fun m => by
    split
    · exact hf m
    · rfl
  unfold State.settling changeMessage State.setOutbound
  dsimp only
  rw [List.filter_map]
  congr 2
  exact List.filter_congr fun m _ => by rw [Function.comp, tags]

theorem settling_nil (o : Byte) (extra : List Byte) (s : State) : s.settling [] o extra = s := by
  simp [State.settling]

/-- R112: the message ends when its station is lost, and does not wait for its attempt. -/
def Message.endsNow (m : Message) : Bool := !(m.state == .inFlight && m.onLine)

/-- R112: the messages of some tags are marked gone. -/
def markGone (tags : List Byte) (m : Message) : Message := if m.tag ∈ tags then { m with gone := true } else m

@[simp] theorem markGone_tag (tags : List Byte) (m : Message) : (markGone tags m).tag = m.tag := by
  unfold markGone
  split <;> rfl

theorem markGone_cons (t : Byte) (tags : List Byte) (m : Message) :
    markGone (t :: tags) m = markGone tags (if m.tag = t then { m with gone := true } else m) := by
  by_cases here : m.tag = t
  · simp [markGone, here]
  · by_cases there : m.tag ∈ tags
    · simp [markGone, here, there]
    · simp [markGone, here, there]

/-- R112: what becomes of some held messages, each of which ends or is marked. -/
theorem overAll_loseMessage {ms : List Message} (hd : s.tagsDistinct) :
    overAll ms loseMessage s = { s.settling (ms.filter (·.endsNow)) 2 [] with
      outbound := (s.settling (ms.filter (·.endsNow)) 2 []).outbound.map
        (markGone ((ms.filter fun m => !m.endsNow).map (·.tag))) } := by
  induction ms generalizing s with
  | nil =>
    have none : (markGone [] : Message → Message) = id := funext fun m => if_neg List.not_mem_nil
    simp [settling_nil, none]
  | cons m ms ih =>
    rw [overAll_cons]
    cases ends : m.endsNow with
    | true =>
      have lost : loseMessage m s = s.settling [m] 2 [] := by
        have : ¬ (m.state = .inFlight ∧ m.onLine = true) := by
          rw [Message.endsNow, Bool.not_eq_true', Bool.and_eq_false_iff] at ends
          rintro ⟨inFlight, line⟩
          simp [inFlight, line] at ends
        rw [loseMessage, if_neg this]
        exact settleMessage_settling m .deviceGone [] hd
      rw [lost, ih (settling_tags _ _ _ hd), settling_settling]
      simp [ends]
    | false =>
      have marked : loseMessage m s = changeMessage m.tag (fun x => { x with gone := true }) s := by
        have : m.state = .inFlight ∧ m.onLine = true := by simpa [Message.endsNow] using ends
        rw [loseMessage, if_pos this]
      have tags : (changeMessage m.tag (fun x => { x with gone := true }) s).tagsDistinct := by
        unfold State.tagsDistinct
        rwa [changeMessage_tags m.tag (fun x => { x with gone := true }) s fun _ => rfl]
      rw [marked, ih tags, changeMessage_settling m.tag (fun x => { x with gone := true }) _ fun _ => rfl]
      simp only [List.filter_cons, ends, Bool.false_eq_true, if_false, Bool.not_false, if_true, List.map_cons]
      refine congrArg (fun held => ({ s.settling (ms.filter (·.endsNow)) 2 [] with outbound := held } : State)) ?_
      exact List.map_map.trans (List.map_congr_left fun x _ => (markGone_cons m.tag _ x).symm)

/-- R112: the messages of a station that is lost: each ends DEVICE_GONE, or is marked gone while its attempt is on the line. -/
theorem loseMessages_eq (a : Nat) (hd : s.tagsDistinct) :
    let goes := fun m : Message => m.destination == a && !(m.state == .inFlight && m.onLine)
    loseMessages a s = { s.settling (s.outbound.filter goes) 2 [] with
      outbound := (s.outbound.filter fun m => !goes m).map fun m =>
        if m.destination = a then { m with gone := true } else m } := by
  intro goes
  have ending : (s.outbound.filter fun m => m.destination == a).filter (·.endsNow) = s.outbound.filter goes := by
    rw [List.filter_filter]
    exact List.filter_congr fun m _ => Bool.and_comm _ _
  have inj : ∀ m ∈ s.outbound, ∀ x ∈ s.outbound, m.tag = x.tag → m = x := fun m hm x hx h =>
    List.inj_on_of_nodup_map hd hm hx h
  have left : (s.outbound.filter fun m => !((s.outbound.filter goes).map (·.tag)).contains m.tag) =
      s.outbound.filter fun m => !goes m := by
    refine List.filter_congr fun m hm => ?_
    congr 1
    rw [Bool.eq_iff_iff, List.contains_iff_mem, List.mem_map]
    constructor
    · rintro ⟨x, hx, ht⟩
      obtain ⟨held, ends⟩ := List.mem_filter.1 hx
      rwa [inj x held m hm ht] at ends
    · exact fun ends => ⟨m, List.mem_filter.2 ⟨hm, ends⟩, rfl⟩
  unfold loseMessages
  rw [overAll_loseMessage hd, ending]
  refine congrArg (fun held => ({ s.settling (s.outbound.filter goes) 2 [] with outbound := held } : State)) ?_
  change (s.outbound.filter fun m => !((s.outbound.filter goes).map (·.tag)).contains m.tag).map _ = _
  rw [left]
  refine List.map_congr_left fun m hm => ?_
  obtain ⟨held, stays⟩ := List.mem_filter.1 hm
  unfold markGone
  refine if_congr ?_ rfl rfl
  simp only [List.mem_map, List.mem_filter]
  constructor
  · rintro ⟨x, ⟨⟨hx, hxa⟩, -⟩, ht⟩
    rw [← inj x hx m held ht]
    simpa using hxa
  · intro here
    refine ⟨m, ⟨⟨held, by simpa using here⟩, ?_⟩, rfl⟩
    simpa [goes, here, Message.endsNow] using stays

/-! ## Waiting slots and triggers of a lost station (R59) -/

/-- R20: slots counted as absent. -/
theorem overAll_countAbsent {α : Type} (xs : List α) (s : State) : overAll xs (fun _ => countAbsent) s =
    { s with sched := { s.sched with absentTally := s.sched.absentTally + BitVec.ofNat 32 xs.length } } := by
  induction xs generalizing s with
  | nil => simp
  | cons x xs ih =>
    rw [overAll_cons, ih]
    have sum : s.sched.absentTally + 1 + BitVec.ofNat 32 xs.length =
        s.sched.absentTally + BitVec.ofNat 32 (xs.length + 1) := by
      rw [BitVec.ofNat_add, BitVec.add_assoc, BitVec.add_comm 1]
      rfl
    simp only [countAbsent, State.setSched, List.length_cons, sum]

/-- R59 step 1. -/
theorem skipWaitingSlots_eq (a : Nat) (s : State) :
    let mine := fun o => decide (∃ x, slotAt s.sched.active o = some x ∧ x.address = a)
    skipWaitingSlots a s = { s with sched := { s.sched with
      waiting := s.sched.waiting.filter fun o => !mine o
      absentTally := s.sched.absentTally + BitVec.ofNat 32 (s.sched.waiting.filter mine).length } } := by
  intro mine
  have same : (fun o => ((slotAt s.sched.active o).map (·.address)) == some a) = mine := by
    funext o
    rw [Bool.eq_iff_iff]
    simp only [mine, beq_iff_eq, Option.map_eq_some_iff, decide_eq_true_eq]
  unfold skipWaitingSlots
  rw [same]
  simp only [overAll_countAbsent, State.setSched]

/-- R59 step 5: the line's record once the station has gone. -/
def LineRecord.unbound (a : Nat) (r : LineRecord) : LineRecord :=
  match r with
  | .input l => .input { l with pending := l.pending && !(!l.cueOnLine && (l.binding.map (·.address)) == some a) }
  | r => r

/-- R59 step 5, R150: the report that the loss of the station raises for a line. -/
def LineRecord.droppedBy (a : Nat) (i : Fin 8) (r : LineRecord) : Option (ReportKind × List Byte) :=
  match r with
  | .input l => l.binding.bind fun k =>
    if k.address = a ∧ l.pending = true ∧ l.cueOnLine = false then
      some (.triggerDropped, [byteOf i.val, byteOf k.address, byteOf k.number, 1])
    else none
  | _ => none

/-- R59 step 5: one line's turn. -/
def loseTrigger (a : Nat) (i : Fin 8) (t : State) : State :=
  match t.lines.records[i] with
  | .input l =>
    match l.binding with
    | some k => if k.address = a ∧ l.pending ∧ ¬ l.cueOnLine then dropTrigger i k .lost t else t
    | none => t
  | _ => t

theorem dropLostTriggers_eq (a : Nat) (s : State) : dropLostTriggers a s = overAll allLines (loseTrigger a) s := rfl

theorem set_getElem_line {α : Type} (v : Vector α 8) (i j : Fin 8) (x : α) :
    (v.set i x)[j] = if j = i then x else v[j] := by
  simp only [Fin.getElem_fin, Vector.getElem_set, Fin.ext_iff, eq_comm]

/-- R150: a dropped trigger is no longer pending, and is reported. -/
theorem dropTrigger_spec {i : Fin 8} {l : InputLine} (k : Key) (r : DropReason) (h : s.lines.records[i] = .input l) :
    (dropTrigger i k r s).lines = { s.lines with records := s.lines.records.set i (.input { l with pending := false }) } ∧
      RaisedExactly [(.triggerDropped, [byteOf i.val, byteOf k.address, byteOf k.number, dropReasonCode r])] s
        (dropTrigger i k r s) := by
  unfold dropTrigger
  rw [changeInput_input _ h]
  have raised := RaisedExactly.one .triggerDropped [byteOf i.val, byteOf k.address, byteOf k.number, dropReasonCode r]
    { s with lines := { s.lines with records := s.lines.records.set i (.input { l with pending := false }) } }
  exact ⟨raiseReport_lines _ _ _, raised.congr rfl rfl rfl rfl⟩

/-- R150: the line's pending trigger, its CUE not on the line, is bound to a point of the address. -/
def InputLine.losesTrigger (a : Nat) (l : InputLine) : Prop :=
  ∃ k, l.binding = some k ∧ k.address = a ∧ l.pending = true ∧ l.cueOnLine = false

theorem unbound_loses {a : Nat} {l : InputLine} (h : l.losesTrigger a) :
    (LineRecord.input l).unbound a = .input { l with pending := false } := by
  obtain ⟨k, hk, address, pending, off⟩ := h
  simp [LineRecord.unbound, hk, address, off]

theorem unbound_keeps {a : Nat} {l : InputLine} (h : ¬ l.losesTrigger a) (i : Fin 8) :
    (LineRecord.input l).unbound a = .input l ∧ (LineRecord.input l).droppedBy a i = none := by
  have same : (l.pending && !(!l.cueOnLine && (l.binding.map (·.address)) == some a)) = l.pending := by
    by_cases pending : l.pending = true
    · by_cases off : l.cueOnLine = false
      · have : (l.binding.map (·.address)) ≠ some a := fun hb => by
          obtain ⟨k, hk, address⟩ := Option.map_eq_some_iff.1 hb
          exact h ⟨k, hk, address, pending, off⟩
        simp [this]
      · simp [off]
    · simp [pending]
  refine ⟨?_, ?_⟩
  · rw [LineRecord.unbound, same]
  · unfold LineRecord.droppedBy
    dsimp only
    cases hk : l.binding with
    | none => rfl
    | some k => exact if_neg fun hh => h ⟨k, hk, hh⟩

/-- R59 step 5: what one line's turn makes of its record, and what it raises. -/
theorem loseTrigger_spec (a : Nat) (i : Fin 8) (s : State) :
    (loseTrigger a i s).lines = { s.lines with records := s.lines.records.set i (s.lines.records[i].unbound a) } ∧
      RaisedExactly (s.lines.records[i].droppedBy a i).toList s (loseTrigger a i s) := by
  have kept : ∀ r, s.lines.records[i] = r →
      s.lines = { s.lines with records := s.lines.records.set i r } := fun r h => by
    subst h
    simp
  unfold loseTrigger
  split
  · rename_i l hl
    rw [hl]
    by_cases loses : l.losesTrigger a
    · rw [unbound_loses loses]
      obtain ⟨k, hk, address, pending, off⟩ := loses
      have told : (LineRecord.input l).droppedBy a i = some
          (.triggerDropped, [byteOf i.val, byteOf k.address, byteOf k.number, 1]) := by
        simp only [LineRecord.droppedBy, hk, Option.bind_some, if_pos (And.intro address (And.intro pending off))]
      rw [told]
      split
      · rename_i k' hk'
        cases hk.symm.trans hk'
        rw [if_pos ⟨address, pending, by simp [off]⟩]
        exact dropTrigger_spec k .lost hl
      · rename_i none
        cases hk.symm.trans none
    · obtain ⟨record, told⟩ := unbound_keeps loses i
      rw [record, told]
      split
      · rename_i k hk
        rw [if_neg fun hh => loses ⟨k, hk, hh.1, hh.2.1, by simpa using hh.2.2⟩]
        exact ⟨kept _ hl, .none rfl rfl⟩
      · exact ⟨kept _ hl, .none rfl rfl⟩
  · rename_i other
    have record : s.lines.records[i].unbound a = s.lines.records[i] ∧ s.lines.records[i].droppedBy a i = none := by
      generalize s.lines.records[i] = r at other
      cases r with
      | input l => exact absurd rfl (other l)
      | _ => exact ⟨rfl, rfl⟩
    rw [record.1, record.2]
    exact ⟨kept _ rfl, .none rfl rfl⟩

/-- R59 step 5: the reports of the dropped triggers, in ascending line number. -/
theorem overAll_loseTrigger_raised (a : Nat) {xs : List (Fin 8)} (distinct : xs.Nodup) (s : State) :
    RaisedExactly (xs.filterMap fun i => s.lines.records[i].droppedBy a i) s (overAll xs (loseTrigger a) s) := by
  induction xs generalizing s with
  | nil => exact .none rfl rfl
  | cons i xs ih =>
    obtain ⟨fresh, distinct⟩ := List.nodup_cons.1 distinct
    obtain ⟨lines, raised⟩ := loseTrigger_spec a i s
    have others : (xs.filterMap fun j => (loseTrigger a i s).lines.records[j].droppedBy a j) =
        xs.filterMap fun j => s.lines.records[j].droppedBy a j :=
      List.filterMap_congr fun j hj => by
        have apart : i ≠ j := fun h => fresh (h ▸ hj)
        have : (loseTrigger a i s).lines.records[j] = s.lines.records[j] := by
          rw [lines]
          exact (set_getElem_line _ i j _).trans (if_neg (Ne.symm apart))
        rw [this]
    have split : ((i :: xs).filterMap fun j => s.lines.records[j].droppedBy a j) =
        (s.lines.records[i].droppedBy a i).toList ++ xs.filterMap fun j => s.lines.records[j].droppedBy a j := by
      rw [List.filterMap_cons]
      cases s.lines.records[i].droppedBy a i <;> rfl
    rw [split, overAll_cons]
    exact raised.trans (others ▸ ih distinct (loseTrigger a i s))

theorem dropLostTriggers_raised (a : Nat) (s : State) :
    RaisedExactly (allLines.filterMap fun i => s.lines.records[i].droppedBy a i) s (dropLostTriggers a s) :=
  overAll_loseTrigger_raised a (by decide) s

/-- R59 step 5: what becomes of the lines. -/
theorem dropLostTriggers_lines (a : Nat) (s : State) (i : Fin 8) :
    (dropLostTriggers a s).lines.records[i] = s.lines.records[i].unbound a ∧
      (dropLostTriggers a s).lines.pins[i] = s.lines.pins[i] := by
  have set : ∀ (j k : Fin 8) (t : State), (loseTrigger a j t).lines.records[k] =
      (if k = j then t.lines.records[j].unbound a else t.lines.records[k]) ∧
      (loseTrigger a j t).lines.pins = t.lines.pins := fun j k t => by
    rw [(loseTrigger_spec a j t).1]
    refine ⟨?_, rfl⟩
    exact set_getElem_line _ j k _
  rw [dropLostTriggers_eq]
  obtain ⟨record, pin⟩ := overAll_lines (f := loseTrigger a) (s := s)
    (fun j k t h => ⟨by rw [(set j k t).1, if_neg h], by rw [(set j k t).2]⟩)
    (fun j t hr hp => ⟨by rw [(set j j t).1, (set j j s).1, if_pos rfl, if_pos rfl, hr],
      by rw [(set j j t).2, (set j j s).2, hp]⟩) i
  rw [record, pin, (set i i s).1, (set i i s).2, if_pos rfl]
  exact ⟨rfl, rfl⟩

/-- Of a state only the report queue, the conditions and the lines have changed. -/
def LinesOnly (s t : State) : Prop := t = { s with reports := t.reports, conds := t.conds, lines := t.lines }

theorem LinesOnly.trans (h : LinesOnly s t) (k : LinesOnly t u) : LinesOnly s u := by
  unfold LinesOnly at h k ⊢
  generalize t.reports = q, t.conds = c, t.lines = l at h
  subst h
  exact k

theorem raiseReport_rest (k : ReportKind) (body : List Byte) (s : State) : raiseReport k body s =
    { s with reports := (raiseReport k body s).reports, conds := (raiseReport k body s).conds } := by
  obtain ⟨us, n, c, frame⟩ := raiseReport_frame k body s
  rw [frame]

theorem dropTrigger_linesOnly (i : Fin 8) (k : Key) (r : DropReason) (s : State) : LinesOnly s (dropTrigger i k r s) := by
  have line : LinesOnly s (changeInput i (fun l => { l with pending := false }) s) := by
    unfold changeInput
    split
    · exact rfl
    · exact rfl
  refine line.trans ?_
  unfold dropTrigger LinesOnly
  conv_lhs => rw [raiseReport_rest]
  rw [raiseReport_lines]

theorem dropLostTriggers_linesOnly (a : Nat) (s : State) : LinesOnly s (dropLostTriggers a s) := by
  refine overAll_keeps (P := LinesOnly s) rfl fun i _ t ht => ?_
  split
  · split
    · split
      · exact ht.trans (dropTrigger_linesOnly i _ _ t)
      · exact ht
    · exact ht
  · exact ht

/-! ## The loss of a station (R58, R59, R61) -/

/-- R59 steps 1 to 3: the state in which the points of the lost station go to NO_SOURCE. -/
def State.losing (a : Nat) (state : RosterState) (cause : LostCause) (s : State) : State :=
  let mine := fun o => decide (∃ x, slotAt s.sched.active o = some x ∧ x.address = a)
  let goes := fun m : Message => m.destination == a && !(m.state == .inFlight && m.onLine)
  let told := (s.raising [(.deviceLost, deviceLostBody a cause (s.entry a))]).settling (s.outbound.filter goes) 2 []
  { s with
    sched := { s.sched with
      waiting := s.sched.waiting.filter fun o => !mine o
      absentTally := s.sched.absentTally + BitVec.ofNat 32 (s.sched.waiting.filter mine).length }
    roster := (s.setEntry a { s.entry a with state := state }).roster
    attention := s.attention.filter fun b => b != a
    outbound := (s.outbound.filter fun m => !goes m).map fun m =>
      if m.destination = a then { m with gone := true } else m
    reports := told.reports, conds := told.conds }

/-- R58, R59, R61: DEVICE_LOST, then the waiting slots, the attention list and the messages. -/
theorem loseStation_eq (a : Nat) (state : RosterState) (cause : LostCause) (hd : s.tagsDistinct) :
    loseStation a state cause s = dropLostTriggers a (publisherGone a (s.losing a state cause)) := by
  have told : raiseReport .deviceLost (deviceLostBody a cause (s.entry a)) (s.setEntry a { s.entry a with state := state }) =
      { s with
        roster := (s.setEntry a { s.entry a with state := state }).roster
        reports := (s.raising [(.deviceLost, deviceLostBody a cause (s.entry a))]).reports
        conds := (s.raising [(.deviceLost, deviceLostBody a cause (s.entry a))]).conds } := by
    have reports : s.reports = (s.setEntry a { s.entry a with state := state }).reports := (setEntry_reports _ _ _).symm
    have conds : s.conds = (s.setEntry a { s.entry a with state := state }).conds := (setEntry_conds _ _ _).symm
    have same := (RaisedExactly.one .deviceLost (deviceLostBody a cause (s.entry a))
      (s.setEntry a { s.entry a with state := state })).congr reports conds rfl rfl
    have own := RaisedExactly.one .deviceLost (deviceLostBody a cause (s.entry a)) s
    rw [raiseReport_rest, same.reports, same.conds, ← own.conds, setEntry_frame]
    rfl
  unfold loseStation lossConsequences
  dsimp only
  rw [told, skipWaitingSlots_eq]
  congr 2
  rw [loseMessages_eq]
  · rfl
  · exact hd

/-- R58, R59, R61: the ACTIVE station of an address is lost, with all the consequences. -/
theorem loseStation_lost {a : Nat} {state : RosterState} {cause : LostCause} (hd : s.tagsDistinct) (hk : s.keysDistinct) :
    StationLost a state (lostCauseCode cause) s (loseStation a state cause s) := by
  have become : PointsBecome (Point.unsourced s.sched.mode a) (s.losing a state cause)
      (publisherGone a (s.losing a state cause)) := publisherGone_becomes (s := s.losing a state cause) a hk
  have lines := dropLostTriggers_lines a (publisherGone a (s.losing a state cause))
  have raised := dropLostTriggers_raised a (publisherGone a (s.losing a state cause))
  have rest := dropLostTriggers_linesOnly a (publisherGone a (s.losing a state cause))
  rw [loseStation_eq a state cause hd]
  generalize publisherGone a (s.losing a state cause) = g at become lines raised rest
  generalize dropLostTriggers a g = t at lines raised rest
  have mirrors := become.cache.mirrors
  have others : ∀ i : Fin 8, s.lines.records[i].mirror = none →
      g.lines.records[i] = s.lines.records[i] ∧ g.lines.pins[i] = s.lines.pins[i] := mirrors
  have mirrored : ∀ (i : Fin 8) l, s.lines.records[i] = .outputMirror l → ∃ l', g.lines.records[i] = .outputMirror l' := by
    intro i l hl
    obtain ⟨changed, same⟩ := become.follow i l hl
    by_cases stays : ∀ p q, (s.losing a state cause).point l.binding = some p → g.point l.binding = some q →
        q.quality = p.quality ∧ q.value = p.value
    · exact ⟨l, (same stays).1.trans hl⟩
    · push Not at stays
      obtain ⟨p, q, hp, hq, other⟩ := stays
      exact ⟨_, (changed p q hp hq (Decidable.not_or_of_imp other)).1⟩
  have kept : ∀ (i : Fin 8) l, s.lines.records[i] = .outputMirror l →
      t.lines.records[i] = g.lines.records[i] ∧ t.lines.pins[i] = g.lines.pins[i] := by
    intro i l hl
    obtain ⟨l', hl'⟩ := mirrored i l hl
    rw [(lines i).1, (lines i).2, hl']
    exact ⟨rfl, rfl⟩
  constructor
  · have cache := become.cache.rest
    rw [become.points] at cache
    unfold LinesOnly at rest
    refine rest.trans ?_
    conv_lhs => rw [cache]
    rfl
  · have drops : (allLines.filterMap fun i => g.lines.records[i].droppedBy a i) =
        allLines.filterMap fun i => s.lines.records[i].droppedBy a i :=
      List.filterMap_congr fun i _ => by
        cases hr : s.lines.records[i] with
        | outputMirror l =>
          obtain ⟨l', hl'⟩ := mirrored i l hr
          rw [hl']
          rfl
        | _ => rw [(others i (by rw [hr]; rfl)).1, hr]
    exact (become.raised.trans (drops ▸ raised)).congr rfl rfl rfl rfl
  · have points : t.points = g.points := by rw [rest]
    intro i l hl
    obtain ⟨changed, same⟩ := become.follow i l hl
    obtain ⟨record, pin⟩ := kept i l hl
    have point : t.point l.binding = g.point l.binding := by rw [State.point, points, State.point]
    rw [record, pin, point]
    exact ⟨changed, same⟩
  · intro i unmirrored
    obtain ⟨record, pin⟩ := others i unmirrored
    rw [(lines i).1, (lines i).2, record, pin]
    exact ⟨rfl, rfl⟩

/-- Settles O22: BAR of an ACTIVE entry is the loss of its station. -/
theorem barLosesActiveStation : Obligations.BarLosesActiveStation := by
  intro num b s h low high active keys tags
  have owner : ownerOf .bar [b] s.taken = accept (loseStation b.toNat .barred .barred s.taken) := by
    refine (forAddress_eq b [] (fun a t => accept (barEntry a t)) s.taken).trans ?_
    rw [if_pos ⟨low, high⟩, barEntry, State.taken_stationActive, if_pos active]
  have lost : StationLost b.toNat .barred (lostCauseCode .barred) s.taken (loseStation b.toNat .barred .barred s.taken) :=
    loseStation_lost tags keys
  exact ⟨_, exec_accepts (r := .bar) h rfl rfl owner, lost⟩

end Sys2Proof.Machine
end

section
/-! PROOFS. STATUS (R186), the local lines' requests (R144, R145, R151), and the requests that await their response (R173,
R187). -/

-- One theorem after another: theorems checked side by side would each hold a thread.
set_option Elab.async false

namespace Sys2Proof.Machine

variable {s t u : State}

/-! ## STATUS (R186, R194) -/

/-- R186: what STATUS shows of the record in flight. -/
def recordStatus (s : State) : List Byte :=
  match s.txn.record with
  | some r => [1, phaseCode r.phase, originCode r.origin]
  | none => [0, 0, 0]

theorem statusTransaction_eq (s : State) : statusTransaction s = recordStatus s ++ be32 s.txn.stray.toNat := rfl

theorem recordStatus_three (s : State) : ∃ x y z, recordStatus s = [x, y, z] := by
  unfold recordStatus
  cases s.txn.record with
  | none => exact ⟨_, _, _, rfl⟩
  | some r => exact ⟨_, _, _, rfl⟩

theorem inFlightTag_two (s : State) : ∃ x y, inFlightTag s = [x, y] := by
  unfold inFlightTag
  cases s.outbound.find? (·.state == .inFlight) with
  | none => exact ⟨_, _, rfl⟩
  | some m => exact ⟨_, _, rfl⟩

theorem ofBytes_word32 (n : Word32) : ofBytes (be32 n.toNat) = n.toNat := by
  rw [ofBytes_be32]
  exact Nat.mod_eq_of_lt n.isLt

theorem ofBytes_word16 (n : Word16) : ofBytes (be16 n.toNat) = n.toNat := by
  rw [ofBytes_be16]
  exact Nat.mod_eq_of_lt n.isLt

theorem ofBytes_small {n : Nat} (h : n ≤ 62) : ofBytes [byteOf n] = n := by
  rw [ofBytes_byteOf]
  exact Nat.mod_eq_of_lt (by omega)

theorem length_addressesIn (x : RosterState) (s : State) : (addressesIn x s).length ≤ 62 :=
  (List.length_filter_le _ _).trans (by simp [stationAddresses, Config.stationCount])

/-- Settles O8: the reply's bytes stand in a row, so each item is read off at its position. -/
theorem statusAnswersSnapshot : Obligations.StatusAnswersSnapshot := by
  intro num s h
  obtain ⟨x, y, z, record⟩ := recordStatus_three s
  obtain ⟨u, v, tag⟩ := inFlightTag_two s
  have roster : statusRoster s = [byteOf (addressesIn .vacant s).length, byteOf (addressesIn .active s).length,
      byteOf (addressesIn .held s).length, byteOf (addressesIn .lost s).length, byteOf (addressesIn .barred s).length,
      flagByte (decide (addressesIn .held s ≠ []))] := by
    have held : s.heldPresent = decide (addressesIn .held s ≠ []) := by
      rw [Bool.eq_iff_iff, heldPresent_iff, decide_eq_true_iff, addressesIn, ne_eq, List.filter_eq_nil_iff]
      push Not
      simp
    simp only [statusRoster, length_entriesIn, held, List.map_cons, List.map_nil, List.cons_append, List.nil_append]
  have all : statusBytes s = statusCycle s ++ ([x, y, z] ++ be32 s.txn.stray.toNat) ++
      [byteOf (addressesIn .vacant s).length, byteOf (addressesIn .active s).length,
        byteOf (addressesIn .held s).length, byteOf (addressesIn .lost s).length, byteOf (addressesIn .barred s).length,
        flagByte (decide (addressesIn .held s ≠ []))] ++
      ([byteOf s.points.length, alternationCode s.gap.alternation, byteOf s.gap.probesStarted,
        byteOf (s.outbound.filter (·.cls == .urgent)).length, byteOf (s.outbound.filter (·.cls == .normal)).length] ++
        [u, v] ++ [byteOf s.attention.length]) ++ statusReports s ++ statusLink s := by
    rw [statusBytes, statusTransaction_eq, record, roster, statusWork, tag]
  refine ⟨statusBytes s, ?_, exec_reads (r := .status) h rfl rfl rfl, ?_⟩
  · rw [all]
    rfl
  · rw [all]
    refine ⟨rfl, ofBytes_word32 _, ofBytes_byteOf _, ofBytes_byteOf _, rfl, ofBytes_word32 _, ofBytes_word32 _, ?_, ?_,
      ofBytes_word32 _, ofBytes_small (length_addressesIn _ s), ofBytes_small (length_addressesIn _ s),
      ofBytes_small (length_addressesIn _ s), ofBytes_small (length_addressesIn _ s),
      ofBytes_small (length_addressesIn _ s), rfl, ofBytes_byteOf _, rfl, ofBytes_byteOf _, ofBytes_byteOf _,
      ofBytes_byteOf _, ?_, ?_, ofBytes_byteOf _, ofBytes_byteOf _, ofBytes_byteOf _, ofBytes_byteOf _, ofBytes_be16 _,
      ofBytes_word16 _, ?_, ofBytes_be16 _, ofBytes_be16 _, ofBytes_be16 _, ofBytes_be16 _⟩
    · intro r hr
      refine Eq.trans (show _ = [x, y, z] from rfl) ?_
      rw [← record, recordStatus, hr]
    · intro hr
      refine Eq.trans (show _ = [x, y, z] from rfl) ?_
      rw [← record, recordStatus, hr]
    · intro m hm
      refine Eq.trans (show _ = [u, v] from rfl) ?_
      rw [← tag, inFlightTag, hm]
    · intro hm
      refine Eq.trans (show _ = [u, v] from rfl) ?_
      rw [← tag, inFlightTag, hm]
    · refine (ofBytes_be32 _).trans ?_
      cases s.link.rate <;> rfl

/-! ## The bytes of a line (R144, R191) -/

@[simp] theorem levelOf_levelCode (v : Level) : levelOf (levelCode v) = some v := by cases v <;> rfl

@[simp] theorem safeLevelOf_safeLevelCode (v : SafeLevel) : safeLevelOf (Wire.safeLevelCode v) = some v := by
  cases v <;> rfl

@[simp] theorem edgeSettingOf_edgeSettingCode (e : EdgeSetting) : edgeSettingOf (Wire.edgeSettingCode e) = some e := by
  cases e <;> rfl

@[simp] theorem flagOf_flagByte (b : Bool) : flagOf (flagByte b) = some b := by cases b <;> rfl

theorem levelOf_out : ∀ b : Byte, 1 < b.toNat → levelOf b = none := by decide

theorem safeLevelOf_out : ∀ b : Byte, 2 < b.toNat → safeLevelOf b = none := by decide

theorem edgeSettingOf_out : ∀ b : Byte, 2 < b.toNat → edgeSettingOf b = none := by decide

theorem flagOf_out : ∀ b : Byte, 1 < b.toNat → flagOf b = none := by decide

theorem lineOf_out {b : Byte} (h : 7 < b.toNat) : lineOf b = none := dif_neg (by omega)

@[simp] theorem lineOf_byteOf (i : Fin 8) : lineOf (byteOf i.val) = some i := by
  have small : (byteOf i.val).toNat = i.val := toNat_byteOf (by omega)
  unfold lineOf
  simp [small]

theorem keyOut_iff {a n : Byte} : (a.toNat < 1 ∨ 62 < a.toNat ∨ 15 < n.toNat) ↔
    ({ address := a.toNat, number := n.toNat } : Key).valid = false := by
  rw [← Bool.not_eq_true, Key.valid_iff]
  dsimp only
  omega

/-! ## SET_LINE (R144, R145) -/

theorem inputRequest_length {fs : List Byte} {r : LineRequest} (h : inputRequest fs = some r) : fs.length = 6 := by
  unfold inputRequest at h
  split at h
  · rfl
  · cases h

theorem hostRequest_length {fs : List Byte} {r : LineRequest} (h : hostRequest fs = some r) : fs.length = 2 := by
  unfold hostRequest at h
  split at h
  · rfl
  · cases h

theorem mirrorRequest_length {fs : List Byte} {r : LineRequest} (h : mirrorRequest fs = some r) : fs.length = 7 := by
  unfold mirrorRequest at h
  split at h
  · rfl
  · cases h

/-- R144 check 1: a request that names a line has a mode of its own and fields that the mode reads. -/
theorem lineRequestOf_some {line mode : Byte} {fs : List Byte} {i : Fin 8} {r : LineRequest}
    (h : lineRequestOf (line :: mode :: fs) = some (i, r)) :
    lineOf line = some i ∧ ((mode = 0 ∧ fs = []) ∨ (mode = 1 ∧ inputRequest fs = some r) ∨
      (mode = 2 ∧ hostRequest fs = some r) ∨ (mode = 3 ∧ mirrorRequest fs = some r)) := by
  unfold lineRequestOf at h
  dsimp only at h
  split at h
  · cases h
  · rename_i j hj
    have number : ∀ n : Nat, n < 256 → mode.toNat = n → mode = BitVec.ofNat 8 n := fun n small hn =>
      BitVec.eq_of_toNat_eq (by rw [hn, BitVec.toNat_ofNat, Nat.mod_eq_of_lt small])
    split at h
    · rename_i hm
      split at h
      · rename_i empty
        cases h
        exact ⟨hj, .inl ⟨number 0 (by omega) hm, empty⟩⟩
      · cases h
    · rename_i hm
      obtain ⟨x, hx, he⟩ := Option.map_eq_some_iff.1 h
      cases he
      exact ⟨hj, .inr (.inl ⟨number 1 (by omega) hm, hx⟩)⟩
    · rename_i hm
      obtain ⟨x, hx, he⟩ := Option.map_eq_some_iff.1 h
      cases he
      exact ⟨hj, .inr (.inr (.inl ⟨number 2 (by omega) hm, hx⟩))⟩
    · rename_i hm
      obtain ⟨x, hx, he⟩ := Option.map_eq_some_iff.1 h
      cases he
      exact ⟨hj, .inr (.inr (.inr ⟨number 3 (by omega) hm, hx⟩))⟩
    · cases h

/-- R144 check 1: the fields of each mode. -/
theorem lineRequestOf_off (line : Byte) : lineRequestOf [line, 0] = (lineOf line).map fun i => (i, .off) := by
  unfold lineRequestOf
  dsimp only
  cases lineOf line <;> rfl

theorem lineRequestOf_input (line : Byte) (fs : List Byte) :
    lineRequestOf (line :: 1 :: fs) = (lineOf line).bind fun i => (inputRequest fs).map fun r => (i, r) := by
  unfold lineRequestOf
  dsimp only
  cases lineOf line <;> rfl

theorem lineRequestOf_host (line : Byte) (fs : List Byte) :
    lineRequestOf (line :: 2 :: fs) = (lineOf line).bind fun i => (hostRequest fs).map fun r => (i, r) := by
  unfold lineRequestOf
  dsimp only
  cases lineOf line <;> rfl

theorem lineRequestOf_mirror (line : Byte) (fs : List Byte) :
    lineRequestOf (line :: 3 :: fs) = (lineOf line).bind fun i => (mirrorRequest fs).map fun r => (i, r) := by
  unfold lineRequestOf
  dsimp only
  cases lineOf line <;> rfl

theorem optKeyOf_out {present a n : Byte}
    (h : 1 < present.toNat ∨ (present = 1 ∧ (a.toNat < 1 ∨ 62 < a.toNat ∨ 15 < n.toNat))) :
    optKeyOf present a n = none := by
  unfold optKeyOf
  rcases h with h | ⟨rfl, h⟩
  · rw [flagOf_out present h]
  · change (if ({ address := a.toNat, number := n.toNat } : Key).valid = true then _ else none) = none
    rw [keyOut_iff.1 h]
    rfl

theorem inputRequest_eq (edge filter report present a n : Byte) :
    inputRequest [edge, filter, report, present, a, n] =
      (edgeSettingOf edge).bind fun e => (flagOf report).bind fun r => (optKeyOf present a n).bind fun k =>
        if filter.toNat ≤ 15 then some (.input e filter.toNat r k) else none := rfl

theorem hostRequest_eq (safe level : Byte) : hostRequest [safe, level] =
    (safeLevelOf safe).bind fun l => (levelOf level).bind fun i => some (.outputHost l i) := rfl

theorem mirrorRequest_eq (safe level a n byteIndex bitIndex invert : Byte) :
    mirrorRequest [safe, level, a, n, byteIndex, bitIndex, invert] =
      (safeLevelOf safe).bind fun l => (levelOf level).bind fun i => (flagOf invert).bind fun v =>
        if (({ address := a.toNat, number := n.toNat } : Key).valid && decide (bitIndex.toNat ≤ 7)) = true then
          some (.outputMirror l i { address := a.toNat, number := n.toNat } byteIndex.toNat bitIndex.toNat v)
        else none := rfl

/-- R191: a key in range is read back from its bytes. -/
theorem key_of_bytes {k : Key} (h : k.valid = true) :
    ({ address := (byteOf k.address).toNat, number := (byteOf k.number).toNat } : Key) = k := by
  have := (Key.valid_iff k).1 h
  rw [toNat_byteOf (n := k.address) (by omega), toNat_byteOf (n := k.number) (by omega)]

theorem optKeyOf_some {k : Key} (h : k.valid = true) :
    optKeyOf 1 (byteOf k.address) (byteOf k.number) = some (some k) := by
  change (if ({ address := (byteOf k.address).toNat, number := (byteOf k.number).toNat } : Key).valid = true then
    some (some ({ address := (byteOf k.address).toNat, number := (byteOf k.number).toNat } : Key)) else none) = _
  rw [key_of_bytes h, if_pos h]

/-- R144, R191: a byte of an INPUT line's fields that is out of its range. -/
theorem inputRequest_out {edge filter report present a n : Byte}
    (h : 2 < edge.toNat ∨ 15 < filter.toNat ∨ 1 < report.toNat ∨ 1 < present.toNat ∨
      (present = 1 ∧ (a.toNat < 1 ∨ 62 < a.toNat ∨ 15 < n.toNat))) :
    inputRequest [edge, filter, report, present, a, n] = none := by
  rw [inputRequest_eq]
  rcases h with h | h | h | h
  · rw [edgeSettingOf_out edge h]
    rfl
  · simp [Nat.not_le.2 h]
  · simp [flagOf_out report h]
  · simp [optKeyOf_out h]

theorem hostRequest_out {safe level : Byte} (h : 2 < safe.toNat ∨ 1 < level.toNat) :
    hostRequest [safe, level] = none := by
  rw [hostRequest_eq]
  rcases h with h | h
  · rw [safeLevelOf_out safe h]
    rfl
  · simp [levelOf_out level h]

theorem mirrorRequest_out {safe level a n byteIndex bitIndex invert : Byte}
    (h : 2 < safe.toNat ∨ 1 < level.toNat ∨ (a.toNat < 1 ∨ 62 < a.toNat ∨ 15 < n.toNat) ∨ 7 < bitIndex.toNat ∨
      1 < invert.toNat) :
    mirrorRequest [safe, level, a, n, byteIndex, bitIndex, invert] = none := by
  rw [mirrorRequest_eq]
  rcases h with h | h | h | h | h
  · rw [safeLevelOf_out safe h]
    rfl
  · simp [levelOf_out level h]
  · simp [keyOut_iff.1 h]
  · simp [Nat.not_le.2 h]
  · simp [flagOf_out invert h]

/-- R144: a SET_LINE whose bytes name no record is refused. -/
theorem exec_setLine_refused {num : Word16} {line mode : Byte} {fs : List Byte}
    (h : TakenFresh (requestFrame .setLine num (line :: mode :: fs)) s) (short : fs.length ≤ 7)
    (none : ∀ i r, lineRequestOf (line :: mode :: fs) ≠ some (i, r)) :
    exec (.setLine num (line :: mode :: fs)) s = .next (s.onlyAnswered .setLine num (.plain .badArgument)) := by
  have unnamed : lineRequestOf (line :: mode :: fs) = Option.none := by
    cases hr : lineRequestOf (line :: mode :: fs) with
    | none => rfl
    | some x => exact absurd hr (none x.1 x.2)
  refine exec_reads (r := .setLine) h ((lengthAllowed_iff _ _).2 ?_) rfl ?_
  · simp only [LengthOf, List.length_cons]
    omega
  · change ownSetLine (line :: mode :: fs) s.taken = _
    rw [ownSetLine, unnamed]
    rfl

/-- R144, R145: a SET_LINE whose bytes name a record is the configuring of the line. -/
theorem exec_setLine_named {num : Word16} {p : List Byte} {i : Fin 8} {r : LineRequest}
    (h : TakenFresh (requestFrame .setLine num p) s) (allowed : lengthAllowed .setLine p.length = true)
    (named : lineRequestOf p = some (i, r)) :
    exec (.setLine num p) s = .next ((configureLine i r s.taken).1.answered .setLine num (configureLine i r s.taken).2) := by
  refine (exec_taken (r := .setLine) h allowed rfl).trans (congrArg _ ?_)
  change (ownSetLine p s.taken).1.answered .setLine num (ownSetLine p s.taken).2 = _
  rw [ownSetLine, named]

/-- R145, R153: a new OUTPUT_MIRROR line shows its point at once. -/
theorem newMirror_eq (safe : SafeLevel) (v : Level) (byteIndex bitIndex : Nat) (invert : Bool) (q : Point) :
    newMirror safe v byteIndex bitIndex invert q =
      let bit : Level := if (q.value.getD byteIndex 0).getLsbD bitIndex != invert then .high else .low
      .outputMirror
        { safe := safe, current := if q.quality = .good then bit else safeShown safe v
          held := if q.quality = .good then bit else v, binding := q.key, byteIndex := byteIndex, bitIndex := bitIndex
          invert := invert } := by
  unfold newMirror MirrorLine.shown MirrorLine.bitLevel
  by_cases good : q.quality = .good
  · simp only [good, if_true]
  · simp only [good, if_false]

/-- Settles O33: each record is read back from its own bytes, and every other payload is refused. -/
theorem setLineReplacesRecord : Obligations.SetLineReplacesRecord := by
  refine ⟨fun num line mode fields s h short bad => ?_, fun num line fields s => ⟨?_, ?_, ?_⟩, fun num i s p h => ⟨?_, ?_, ?_, ?_, ?_⟩⟩
  · refine exec_setLine_refused h short fun i r named => ?_
    obtain ⟨hi, hm⟩ := lineRequestOf_some named
    have known : ¬ 7 < line.toNat := fun out => by rw [lineOf_out out] at hi; cases hi
    rcases hm with ⟨rfl, empty⟩ | ⟨rfl, hr⟩ | ⟨rfl, hr⟩ | ⟨rfl, hr⟩
    · simp_all
      omega
    · have := inputRequest_length hr
      simp_all
      omega
    · have := hostRequest_length hr
      simp_all
      omega
    · have := mirrorRequest_length hr
      simp_all
      omega
  · rintro edge filter report present a n rfl bad h
    refine exec_setLine_refused h (by simp) fun i r named => ?_
    rw [lineRequestOf_input, inputRequest_out bad] at named
    simp at named
  · rintro safe level rfl bad h
    refine exec_setLine_refused h (by simp) fun i r named => ?_
    rw [lineRequestOf_host, hostRequest_out bad] at named
    simp at named
  · rintro safe level a n byteIndex bitIndex invert rfl bad h
    refine exec_setLine_refused h (by simp) fun i r named => ?_
    rw [lineRequestOf_mirror, mirrorRequest_out bad] at named
    simp at named
  · rintro rfl
    have named : lineRequestOf (Wire.setLineOff i) = some (i, .off) :=
      (lineRequestOf_off _).trans (by rw [lineOf_byteOf]; rfl)
    refine (exec_setLine_named h rfl named).trans (congrArg _ ?_)
    exact congrArg (State.answered · .setLine num okReply) (putLine_eq i _ s.taken)
  · rintro e filter report small rfl
    have named : lineRequestOf (Wire.setLineInput i e filter report none) = some (i, .input e filter report none) := by
      refine (lineRequestOf_input _ _).trans ?_
      change ((lineOf (byteOf i.val)).bind fun i => (inputRequest [Wire.edgeSettingCode e, byteOf filter, flagByte report, 0,
        0, 0]).map fun r => (i, r)) = _
      have absent : optKeyOf 0 0 0 = some none := rfl
      rw [inputRequest_eq, absent]
      simp [toNat_byteOf (n := filter) (by omega), small]
    refine (exec_setLine_named h rfl named).trans (congrArg _ ?_)
    exact congrArg (State.answered · .setLine num okReply) (putLine_eq i _ s.taken)
  · rintro e filter report k small valid rfl
    have named : lineRequestOf (Wire.setLineInput i e filter report (some k)) = some (i, .input e filter report (some k)) := by
      refine (lineRequestOf_input _ _).trans ?_
      change ((lineOf (byteOf i.val)).bind fun i => (inputRequest [Wire.edgeSettingCode e, byteOf filter, flagByte report, 1,
        byteOf k.address, byteOf k.number]).map fun r => (i, r)) = _
      rw [inputRequest_eq, optKeyOf_some valid]
      simp [toNat_byteOf (n := filter) (by omega), small]
    refine (exec_setLine_named h rfl named).trans (congrArg _ ?_)
    cases hk : s.point k with
    | none =>
      rw [if_pos rfl, configureLine, State.taken_point, hk]
      rfl
    | some p =>
      rw [if_neg (by simp), configureLine, State.taken_point, hk]
      exact congrArg (State.answered · .setLine num okReply) (putLine_eq i _ s.taken)
  · rintro safe v rfl
    have named : lineRequestOf (Wire.setLineHost i safe v) = some (i, .outputHost safe v) := by
      refine (lineRequestOf_host _ _).trans ?_
      rw [hostRequest_eq]
      simp
    refine (exec_setLine_named h rfl named).trans (congrArg _ ?_)
    exact congrArg (State.answered · .setLine num okReply) (putLine_eq i _ s.taken)
  · rintro safe v k byteIndex bitIndex invert valid small bit rfl
    have named : lineRequestOf (Wire.setLineMirror i safe v k byteIndex bitIndex invert) =
        some (i, .outputMirror safe v k byteIndex bitIndex invert) := by
      refine (lineRequestOf_mirror _ _).trans ?_
      change ((lineOf (byteOf i.val)).bind fun i => (mirrorRequest [Wire.safeLevelCode safe, levelCode v, byteOf k.address,
        byteOf k.number, byteOf byteIndex, byteOf bitIndex, flagByte invert]).map fun r => (i, r)) = _
      rw [mirrorRequest_eq, key_of_bytes valid, toNat_byteOf small, toNat_byteOf (n := bitIndex) (by omega)]
      simp [valid, bit]
    refine (exec_setLine_named h rfl named).trans (congrArg _ ?_)
    unfold configureLine
    dsimp only
    rw [State.taken_point]
    cases hk : s.point k with
    | none => rfl
    | some q =>
      obtain ⟨rfl, -⟩ := point_some hk
      dsimp only
      by_cases inside : byteIndex < q.length
      · rw [if_pos inside, if_neg (Nat.not_le.2 inside)]
        refine (congrArg (State.answered · .setLine num okReply) (putLine_eq i _ s.taken)).trans ?_
        rw [newMirror_eq]
        cases safe <;> rfl
      · rw [if_neg inside, if_pos (Nat.not_lt.1 inside)]
        rfl

/-! ## WRITE_LINE, SET_LINK_RATE and RESTART (R151, R173, R187) -/

theorem levelOf_in : ∀ b : Byte, b.toNat ≤ 1 → levelOf b = some (if b.toNat = 1 then .high else .low) := by decide

theorem lineOf_in {b : Byte} {i : Fin 8} (h : b.toNat = i.val) : lineOf b = some i := by
  unfold lineOf
  simp [h]

/-- Settles O34: the line takes the level as any output does. -/
theorem writeLineDrivesHostLine : Obligations.WriteLineDrivesHostLine := by
  intro num b v s h
  have owner : ∀ x, ownWriteLine [b, v] s.taken = x → ownerOf .writeLine [b, v] s.taken = x := fun x hx => hx
  refine ⟨fun out => exec_reads (r := .writeLine) h rfl rfl (owner _ ?_),
    fun i hi small other => exec_reads (r := .writeLine) h rfl rfl (owner _ ?_),
    fun i l hi small host => ?_⟩
  · unfold ownWriteLine
    simp only [List.getD_cons_zero, List.getD_cons_succ]
    rcases out with out | out
    · rw [lineOf_out out]
      rfl
    · rw [levelOf_out v out]
      cases lineOf b <;> rfl
  · unfold ownWriteLine
    simp only [List.getD_cons_zero, List.getD_cons_succ]
    rw [lineOf_in hi, levelOf_in v small]
    dsimp only
    split
    · rename_i l hl
      exact absurd hl (other l)
    · rfl
  · have written : ownerOf .writeLine [b, v] s.taken = accept (s.taken.lineTakes i
        (.outputHost { l with
          current := if v.toNat = 1 then .high else .low, held := if v.toNat = 1 then .high else .low
          forcedSafe := false })
        (some (if v.toNat = 1 then .high else .low))) := by
      refine owner _ ?_
      unfold ownWriteLine
      simp only [List.getD_cons_zero, List.getD_cons_succ]
      rw [lineOf_in hi, levelOf_in v small]
      dsimp only
      rw [State.taken_lines, host]
      exact congrArg accept (putLine_eq i _ s.taken)
    refine (exec_accepts (r := .writeLine) h rfl rfl written).trans ?_
    simp only [State.lineTakes, State.taken_lines, host, LineRecord.drives, beq_iff_eq, eq_comm (b := l.current)]

/-- R173: a number is the rate of the link that it counts. -/
theorem linkRateOf_setLinkRate (r : LinkRate) : linkRateOf (ofBytes ((Wire.setLinkRate r).take 4)) = some r := by
  have bytes : (Wire.setLinkRate r).take 4 = be32 (baud r) := rfl
  rw [bytes, ofBytes_be32]
  cases r <;> simp [baud, linkRateOf]

theorem linkRateOf_out {n : Nat} (h : n ∉ [115200, 230400, 460800, 921600]) : linkRateOf n = none := by
  simp only [List.mem_cons, List.not_mem_nil, or_false, not_or] at h
  obtain ⟨h1, h2, h3, h4⟩ := h
  simp [linkRateOf, baud, Ne.symm h1, Ne.symm h2, Ne.symm h3, Ne.symm h4]

/-- Settles O35: both requests only mark what waits. -/
theorem rateChangeAndRestartAwaitResponse : Obligations.RateChangeAndRestartAwaitResponse := by
  intro num s
  refine ⟨fun r h => ?_, fun p four h out => ?_, fun h => exec_taken (r := .restart) h rfl rfl⟩
  · refine (exec_taken (r := .setLinkRate) h rfl rfl).trans (congrArg _ ?_)
    change (ownSetLinkRate (Wire.setLinkRate r) s.taken).1.answered .setLinkRate num
      (ownSetLinkRate (Wire.setLinkRate r) s.taken).2 = _
    unfold ownSetLinkRate
    rw [linkRateOf_setLinkRate]
    dsimp only
    rw [State.taken_link_rate]
    split
    · rfl
    · rfl
  · refine exec_reads (r := .setLinkRate) h ((lengthAllowed_iff _ _).2 four) rfl ?_
    change ownSetLinkRate p s.taken = _
    have unnamed : linkRateOf (ofBytes (p.take 4)) = none := linkRateOf_out out
    rw [ownSetLinkRate, unnamed]
    rfl

end Sys2Proof.Machine
end

section
/-! PROOFS. What a law about the record, the entries, the points, the banks or the lines needs to be kept by every command. -/

-- One theorem after another: theorems checked side by side would each hold a thread.
set_option Elab.async false

namespace Sys2Proof.Machine

variable {P : State → Prop} {s t u : State}

/-- The pieces that hold no part of the mode, the banks, the record, the entries, the points, the outbound queue, the attention
list, the lines and the transmitter. -/
def slackPieces : List Piece :=
  [.cycle, .waiting, .presented, .counts, .traffic, .gap, .reports, .conds, .babble, .wire, .link]

/-- A record in SENDING is under way while the transmitter is away from IDLE; of any other record the law may say that it is in
IDLE. -/
def Record.Steady (r : Record) (s : State) : Prop := ∀ since, r.phase = .sending since → s.seg.transmitter.busy = false

/-- The property stands through each happening that bears on the pieces beyond `slackPieces`. -/
structure LawStable (P : State → Prop) : Prop where
  frame : ∀ s t, Touches slackPieces s t → P s → P t
  owner : ∀ r p s, P s → modeRefusal r s.sched.mode = none → P (ownerOf r p s).1
  resets : ∀ c r s, P (resetPart c r s)
  holds : ∀ s, P s → P (holdInReset s)
  safe : ∀ s, P s → P (forceOutputsSafe s)
  crosses : ∀ s, P s → P (crossBoundary s)
  closes : ∀ s, P s → s.sched.mode = .stopping → s.txn.record = none → P (endStopping s)
  marks : ∀ s, P s → s.sched.mode = .run → s.txn.record = none → P (startMark s)
  slots : ∀ x s, P s → s.sched.mode = .run → s.txn.record = none → P (startSlot x s)
  gap : GapStable (fun u => P u ∧ u.sched.mode = .run ∧ u.txn.record = none) P
  ends : ∀ o s r, P s → s.txn.record = some r → r.Steady s → P (endRecord o s)
  phase : ∀ p s r, P s → s.txn.record = some r → r.Steady s → P (setPhase r p s)
  spoils : ∀ s r, P s → s.txn.record = some r → P (s.setTxn { s.txn with record := some { r with abandonAtEnd := true } })
  sends : ∀ s r, P s → s.txn.record = some r →
    P ((setPhase r (.sending s.now) s).setSeg { s.seg with transmitter := .sending r.body s.now, echo := none })
  rests : ∀ v n s, P s → P (returnToIdle v n s)
  pins : ∀ i v s, P s → P (setPin i v s)
  takes : ∀ i s, P s → P (takeLasting i s)
  sees : ∀ i v s, P s → P (seePin i v s)
  filters : ∀ i l v s, P s → s.lines.records[i] = .input l → P (changeFiltered i l v s)

theorem Record.steady_of_idle {r : Record} (h : s.seg.transmitter.busy = false) : r.Steady s := fun _ _ => h

theorem Record.steady_of_phase {r : Record} (h : ∀ since, r.phase ≠ .sending since) : r.Steady s :=
  fun since hp => absurd hp (h since)

theorem setFault_touches (b : Bool) (s : State) : Touches [.babble] s (s.setSeg { s.seg with babbleFault := b }) :=
  ⟨le_rfl, rfl, fun p hp => by cases p <;> simp_all [Piece.same]⟩

/-- R172, R173, R187: when a frame has left, the link alone has changed or the part has been reset. -/
theorem finishFrame_keeps (link : ∀ s t, Touches [.link] s t → P s → P t) (resets : ∀ c r s, P (resetPart c r s)) (hs : P s) :
    P (finishFrame s) := by
  have after : ∀ u, P u → P (afterResponse u) := fun u hu => by
    unfold afterResponse
    split
    · exact resets _ _ _
    · split
      · exact link _ _ (setLink_touches u _) hu
      · exact hu
  unfold finishFrame
  split
  · exact hs
  · rename_i f _
    have free := link _ _ (setLink_touches _ { (s.reach (s.frameEnd f)).link with sending := none })
      (link _ _ (reach_touches s (s.frameEnd f)).mono hs)
    dsimp only
    refine link _ _ (startWaiting_touches _) ?_
    split
    · exact after _ free
    · exact free

namespace LawStable

theorem frame_of (h : LawStable P) {ps : List Piece} (ht : Touches ps s t) (hs : P s)
    (hp : ps ⊆ slackPieces := by simp [slackPieces]) : P t :=
  h.frame s t (ht.mono hp) hs

theorem verdicts (h : LawStable P) : VerdictStable P where
  raise k body s hs := h.frame_of (raiseReport_touches s k body) hs
  foreign s hs := h.frame_of (activate_touches s .foreign) hs
  frame _ _ ht hs := h.frame_of ht hs
  ends o s r hs hr hp := h.ends o s r hs hr (Record.steady_of_phase fun since e => by rw [hp] at e; cases e)

theorem reach (h : LawStable P) (n : Nat) (hs : P s) : P (s.reach n) := h.frame_of (reach_touches s n) hs

theorem finishFrame (h : LawStable P) (hs : P s) : P (finishFrame s) :=
  finishFrame_keeps (fun _ _ ht hs => h.frame_of ht hs) h.resets hs

theorem abandonRecord (h : LawStable P) (hs : P s) : P (abandonRecord s) := by
  unfold Machine.abandonRecord
  split
  · exact hs
  · rename_i r hr
    split
    · exact h.spoils s r hs hr
    · rename_i other
      exact h.ends _ s r hs hr (Record.steady_of_phase other)

theorem hearTransition (h : LawStable P) (hs : P s) : P (hearTransition s) := by
  unfold Machine.hearTransition
  split
  · rename_i r hr
    split
    · rename_i deadline hp
      split
      · exact h.phase _ s r hs hr (Record.steady_of_phase fun since e => by rw [hp] at e; cases e)
      · exact hs
    · exact hs
  · exact hs

theorem leaveSending (h : LawStable P) {r : Record} (v : EchoVerdict) (n : Nat) (hr : s.txn.record = some r)
    (idle : s.seg.transmitter.busy = false) (hs : P s) : P (leaveSending r v n s) := by
  have ended := fun o => h.ends o s r hs hr (Record.steady_of_idle idle)
  unfold Machine.leaveSending
  split
  · exact ended _
  · split
    · split
      · exact ended _
      · exact h.phase _ s r hs hr (Record.steady_of_idle idle)
    · exact ended _
    · exact ended _

theorem command (h : LawStable P) (c : Instr) (s t : State) (hs : P s) (he : exec c s = .next t) : P t := by
  obtain ⟨ps, v⟩ := commandView c
  by_cases slack : ps ⊆ slackPieces
  · exact h.frame_of (exec_touches v he) hs slack
  cases v
  case request r num p =>
    rw [exec_request] at he
    cases he
    exact takeRequest_keeps (fun u l hu => h.frame_of (setLink_touches u l) hu)
      (fun u hu => h.frame_of (deactivate_touches u .hostSilent) hu) (fun u _ _ mode hu => h.owner r p u hu mode) hs
  case segmentFrameReceived xs => exact h.verdicts.segmentFrameReceived he hs
  case startDelimiterTimeout => exact h.verdicts.startDelimiterTimeout he hs
  case lineQuiet => exact h.verdicts.lineQuiet he hs
  case gapConsideration =>
    exact h.gap.gapConsideration (fun _ hu => hu.1) he (fun _ ho => ⟨hs, opportunity_run_idle ho⟩) hs
  all_goals obtain rfl := Host.Outcome.next.inj he
  case resetPinAsserted => exact h.holds s hs
  case hardReset cause => exact h.resets _ _ s
  case localLinePinChange i v =>
    split
    · exact hs
    · have set := h.pins i v _ (unlessInReset_keeps hs fun _ => h.takes i s hs)
      exact unlessInReset_keeps set fun _ => h.sees i v _ set
  case unknownRequest => exact absurd (by simp [slackPieces]) slack
  all_goals refine unlessInReset_keeps hs fun _ => ?_
  case inputFilterExpired =>
    split
    · rename_i l hl
      split
      · exact h.filters _ l _ _ (h.reach _ hs) hl
      · exact hs
    · exact hs
  case linkFrameSent => exact h.finishFrame hs
  case linkRateChange =>
    split
    · exact h.finishFrame hs
    · exact hs
  case softReset =>
    split
    · exact h.finishFrame hs
    · exact hs
  case hostSilentTimeout =>
    split
    · exact h.safe _ (h.frame_of (activate_touches _ _) (h.reach _ hs))
    · exact hs
  case boundary =>
    split
    · exact h.crosses _ (h.reach _ hs)
    · exact hs
  case markStart =>
    split
    · rename_i hc
      exact h.marks s hs hc.1 (s.linePermits_iff.1 hc.2.2).1
    · exact hs
  case slotStart =>
    split
    · split
      · rename_i hc
        exact h.slots _ s hs hc.1 (s.linePermits_iff.1 hc.2.2.1).1
      · exact hs
    · exact hs
  case stoppingEnd =>
    split
    · rename_i hc
      exact h.closes s hs hc.1 hc.2
    · exact hs
  case transmitStart =>
    split
    · rename_i r hr
      split
      · split
        · exact h.frame_of (measureMark_touches _ _) (h.sends _ r (h.reach s.turnaroundAt hs) hr)
        · exact hs
      · exact hs
    · exact hs
  case waitingLineTimeout =>
    split
    · rename_i r hr
      split
      · rename_i since hp
        exact h.ends _ _ r (h.reach _ hs) hr (Record.steady_of_phase fun _ e => by rw [hp] at e; cases e)
      · exact hs
    · exact hs
  case answerWindowExpired =>
    split
    · rename_i r hr
      split
      · rename_i deadline hp
        exact h.ends _ _ r (h.reach _ hs) hr (Record.steady_of_phase fun _ e => by rw [hp] at e; cases e)
      · exact hs
    · exact hs
  case echoVerdict =>
    split
    · rename_i body since r _ hr
      have idle := h.rests (echoVerdictOf body s.seg) (since + s.bits (frameBits body.length)) _
        (h.reach (since + s.bits (frameBits body.length)) hs)
      have followed := followEcho_touches (echoVerdictOf body s.seg) (returnToIdle (echoVerdictOf body s.seg)
        (since + s.bits (frameBits body.length)) (s.reach (since + s.bits (frameBits body.length))))
      refine h.leaveSending _ _ ((followed.same .record (by simp)).trans hr) ?_ (h.frame_of followed idle)
      exact congrArg Transmitter.busy (followed.same .transmitter (by simp))
    · exact hs
  case firstTransition =>
    have seen := h.frame_of (seeTransition_touches s) hs
    split
    · exact h.hearTransition (h.frame_of (beginFrame_touches _) seen)
    · exact seen
  case babbleDetected =>
    split
    · exact h.abandonRecord (h.frame_of (raiseReport_touches _ _ _) (h.frame_of (activate_touches _ _)
        (h.frame_of (setFault_touches true _) (h.reach _ hs))))
    · exact hs
  all_goals exact absurd (by simp [slackPieces]) slack

end LawStable

end Sys2Proof.Machine
end

section
/-! PROOFS. References: banks, bindings, points (R8, R70, R143), and the waiting slots (R20). -/

-- One theorem after another: theorems checked side by side would each hold a thread.
set_option Elab.async false

namespace Sys2Proof.Machine

variable {P : State → Prop} {s t u : State}

/-! ## The end of a record, for properties that the queues do not bear on (R35) -/

/-- What reports, points, lines and entries do not bear on, nor what becomes of the record and the queues, the end of a record
keeps. -/
theorem ReportStable.endRecord (h : ReportStable P)
    (quiet : ∀ s t, Touches [.record, .reports, .conds, .outbound] s t → P s → P t) (o : TxnOutcome) (hs : P s) :
    P (endRecord o s) := by
  unfold Machine.endRecord
  split
  · exact hs
  · rename_i r _
    extract_lets owned src cleared delivered
    have phase := quiet _ _ (setRecord_touches s (some { r with phase := .ended })).mono hs
    have marked : P cleared := by
      unfold cleared clearOnLine
      split
      · exact quiet _ _ (changeMessage_touches _ _ _).mono phase
      · exact h.input _ _ _ (fun _ => rfl) phase
      · exact phase
    have told := h.deliver (fun a u hu => quiet _ _ (loseMessages_touches u a).mono hu) r o marked
    refine quiet _ _ (setRecord_touches _ none).mono ?_
    unfold delivered ownerStep
    split
    · exact told
    · exact h.frame _ _ (slotOutcome_touches _ _ o).mono told
    · unfold triggerOutcome
      split
      · exact h.input _ _ _ (fun _ => rfl) told
      · exact told
    · exact quiet _ _ (outboundOutcome_touches _ _ o).mono told
    · exact quiet _ _ (fetchOutcome_touches _ _ o).mono told
    · exact told

/-! ## What the law of references speaks of -/

/-- The banks, the period, the keys of the points and the bindings of the lines are the same in two states. -/
structure SameReferences (s t : State) : Prop where
  active : t.sched.active = s.sched.active
  shadow : t.sched.shadow = s.sched.shadow
  period : t.sched.params.period = s.sched.params.period
  keys : t.points.map (·.key) = s.points.map (·.key)
  bindings : ∀ i : Fin 8, t.lines.records[i].trigger = s.lines.records[i].trigger ∧
    t.lines.records[i].mirror = s.lines.records[i].mirror

namespace SameReferences

theorem refl (s : State) : SameReferences s s := ⟨rfl, rfl, rfl, rfl, fun _ => ⟨rfl, rfl⟩⟩

theorem trans (h : SameReferences s t) (k : SameReferences t u) : SameReferences s u :=
  ⟨k.active.trans h.active, k.shadow.trans h.shadow, k.period.trans h.period, k.keys.trans h.keys,
    fun i => ⟨(k.bindings i).1.trans (h.bindings i).1, (k.bindings i).2.trans (h.bindings i).2⟩⟩

theorem of_touches {ps : List Piece} (h : Touches ps s t) (ha : Piece.active ∉ ps := by simp)
    (hs : Piece.shadow ∉ ps := by simp) (hp : Piece.params ∉ ps := by simp) (hk : Piece.points ∉ ps := by simp)
    (hl : Piece.lines ∉ ps := by simp) : SameReferences s t where
  active := h.same _ ha
  shadow := h.same _ hs
  period := congrArg Params.period (h.same .params hp)
  keys := congrArg (List.map (·.key)) (h.same .points hk)
  bindings i := by
    have lines : t.lines = s.lines := h.same _ hl
    rw [lines]
    exact ⟨rfl, rfl⟩

end SameReferences

/-- A line takes a record with the same bindings. -/
theorem putLine_references {i : Fin 8} {r : LineRecord} (trigger : r.trigger = s.lines.records[i].trigger)
    (mirror : r.mirror = s.lines.records[i].mirror) : SameReferences s (putLine i r s) := by
  refine ⟨rfl, rfl, rfl, rfl, fun j => ?_⟩
  rw [putLine_records]
  split
  · rename_i same
    subst same
    exact ⟨trigger, mirror⟩
  · exact ⟨rfl, rfl⟩

theorem changeInput_references (i : Fin 8) {f : InputLine → InputLine} (hf : ∀ l, (f l).binding = l.binding) (s : State) :
    SameReferences s (changeInput i f s) := by
  unfold changeInput
  split
  · rename_i l hl
    exact putLine_references (by rw [hl]; exact hf l) (by rw [hl]; rfl)
  · exact .refl s

theorem notifyMirrors_references (k : Key) (q : Quality) (v : List Byte) (s : State) :
    SameReferences s (notifyMirrors k q v s) := by
  refine overAll_keeps (.refl s) fun i _ t ht => ?_
  split
  · rename_i l hl
    split
    · have binding : (l.shown q v).binding = l.binding := by
        unfold MirrorLine.shown
        split <;> rfl
      exact ht.trans (putLine_references (by rw [hl]; rfl) (by rw [hl]; exact congrArg some binding))
    · exact ht
  · exact ht

theorem changePoint_references (f : Point → Point) (p : Point) (s : State) :
    SameReferences s (changePoint f p s) := by
  have placed : SameReferences s (s.setPoints (replacePoint s.points (f p))) :=
    ⟨rfl, rfl, rfl, replacePoint_keys _ _, fun _ => ⟨rfl, rfl⟩⟩
  have told : SameReferences s (if watched p (f p) then
      raiseReport .pointChanged (pointChangedBody (f p)) (s.setPoints (replacePoint s.points (f p)))
      else s.setPoints (replacePoint s.points (f p))) := by
    split
    · exact placed.trans (.of_touches (raiseReport_touches _ _ _))
    · exact placed
  unfold changePoint
  dsimp only
  split
  · exact told
  · exact told.trans (notifyMirrors_references _ _ _ _)

theorem changePoints_references (f : Point → Point) (ps : List Point) (s : State) :
    SameReferences s (changePoints f ps s) :=
  overAll_keeps (.refl s) fun p _ t ht => ht.trans (changePoint_references f p t)

/-- R70: a key has a record. -/
theorem point_ne_none_iff {k : Key} : s.point k ≠ none ↔ k ∈ s.points.map (·.key) := by
  unfold State.point
  rw [ne_eq, List.find?_eq_none]
  simp [List.mem_map]

theorem State.bankLawful.mono {bank : List Slot} (h : s.bankLawful bank)
    (period : ∀ x ∈ bank, slotInRange s.sched.params.period x = true → slotInRange t.sched.params.period x = true)
    (points : ∀ x ∈ bank, s.point x.key ≠ none → t.point x.key ≠ none) : t.bankLawful bank := by
  obtain ⟨short, ascending, each⟩ := h
  exact ⟨short, ascending, fun x hx => ⟨period x hx (each x hx).1, points x hx (each x hx).2⟩⟩

theorem SameReferences.bankLawful (h : SameReferences s t) {bank : List Slot} (hs : s.bankLawful bank) :
    t.bankLawful bank :=
  hs.mono (fun x _ hx => h.period ▸ hx) fun x _ hx => by rwa [point_ne_none_iff, h.keys, ← point_ne_none_iff]

theorem State.ReferenceLaw.congr (h : SameReferences s t) (hs : s.ReferenceLaw) : t.ReferenceLaw := by
  obtain ⟨active, shadow, bindings, ascending, few⟩ := hs
  refine ⟨?_, ?_, fun i k hk => ?_, by rw [h.keys]; exact ascending, ?_⟩
  · rw [h.active]
    exact h.bankLawful active
  · rw [h.shadow]
    exact h.bankLawful shadow
  · rw [(h.bindings i).1, (h.bindings i).2] at hk
    rw [point_ne_none_iff, h.keys, ← point_ne_none_iff]
    exact bindings i k hk
  · have := congrArg List.length h.keys
    simp only [List.length_map] at this
    omega

theorem references_reports : ReportStable State.ReferenceLaw where
  raise _ _ s hs := hs.congr (.of_touches (raiseReport_touches s _ _))
  frame _ _ h hs := hs.congr (.of_touches h)
  point f p s _ hs := hs.congr (changePoint_references f p s)
  input i _ s hf hs := hs.congr (changeInput_references i hf s)

theorem references_endRecord (o : TxnOutcome) (s : State) (hs : s.ReferenceLaw) : (endRecord o s).ReferenceLaw :=
  references_reports.endRecord (fun _ _ h hs => hs.congr (.of_touches h)) o hs

theorem references_gap : GapStable State.ReferenceLaw State.ReferenceLaw where
  drop i k _ hs := references_reports.dropTrigger i k _ hs
  trigger i _ k s hs _ _ _ :=
    (hs.congr (changeInput_references i (f := fun l => { l with cueOnLine := true }) (fun _ => rfl) s)).congr
      (.of_touches (handOver_touches _ _ _ _ _ _))
  send _ m s hs _ := hs.congr (.of_touches (startSend_touches m s))
  fetch a rest s hs _ _ := hs.congr (.of_touches (startFetch_touches a rest s))
  roll a s hs _ := hs.congr (.of_touches (startRoll_touches a s))

/-! ## The cycle and the lines -/

theorem startCycle_references (s : State) : SameReferences s (startCycle s) := by
  have pointed : SameReferences s (s.setRoster { s.roster with probePointer := 1 }) :=
    ⟨rfl, rfl, rfl, rfl, fun _ => ⟨rfl, rfl⟩⟩
  refine pointed.trans ((changePoints_references (Point.withQuality .noSource) s.points _).trans ?_)
  exact ⟨rfl, rfl, rfl, rfl, fun _ => ⟨rfl, rfl⟩⟩

theorem stopCycle_references (s : State) : SameReferences s (stopCycle s) := by
  have stopped : SameReferences s
      (s.setSched { s.sched with mode := .stopping, markWaiting := false, waiting := [] }) :=
    ⟨rfl, rfl, rfl, rfl, fun _ => ⟨rfl, rfl⟩⟩
  exact stopped.trans ((changePoints_references (Point.withQuality .offline) s.points _).trans
    (.of_touches (evaluateForeign_touches _)))

theorem endStopping_references (s : State) : SameReferences s (endStopping s) := by
  unfold endStopping
  extract_lets sched opened swapped settled unattended aborted untriggered evaluated
  have opens : SameReferences s opened := ⟨rfl, rfl, rfl, rfl, fun _ => ⟨rfl, rfl⟩⟩
  have swap : SameReferences opened swapped := .of_touches (discardSwap_touches _)
  have roster : SameReferences swapped settled := .of_touches (settleRoster_touches _)
  have attention : SameReferences settled unattended := .of_touches (setAttention_touches _ [])
  have messages : SameReferences unattended aborted := .of_touches (abortMessages_touches _)
  have lines : SameReferences aborted untriggered :=
    overAll_keeps (.refl _) fun i _ t ht => ht.trans
      (changeInput_references i (f := fun l => { l with pending := false }) (fun _ => rfl) t)
  have foreign : SameReferences untriggered evaluated := .of_touches (evaluateForeign_touches _)
  exact ((((((opens.trans swap).trans roster).trans attention).trans messages).trans lines).trans foreign).trans
    (.of_touches (raiseReport_touches _ _ _))

/-- R13: the shadow bank, lawful as it is, becomes the active one. -/
theorem State.ReferenceLaw.exchangeBanks (hs : s.ReferenceLaw) : (exchangeBanks s).ReferenceLaw := by
  obtain ⟨-, shadow, rest⟩ := hs
  exact ⟨shadow, shadow, rest⟩

theorem State.ReferenceLaw.carryOutSwap (hs : s.ReferenceLaw) : (carryOutSwap s).ReferenceLaw := by
  unfold Machine.carryOutSwap
  split
  · have taken : (s.setSched { s.sched with swapPending := false }).ReferenceLaw := hs
    exact taken.exchangeBanks.congr (.of_touches (raiseReport_touches _ _ _))
  · exact hs

theorem State.ReferenceLaw.crossBoundary (hs : s.ReferenceLaw) : (crossBoundary s).ReferenceLaw := by
  unfold Machine.crossBoundary
  extract_lets ended dropped opened aged gap calmed expired reported
  have late : SameReferences s (overrunLate s) := .of_touches (overrunLate_touches s)
  have skips : SameReferences (overrunLate s) (skipOverruns (overrunLate s)) := .of_touches (skipOverruns_touches _)
  have mark : SameReferences (skipOverruns (overrunLate s)) dropped := .of_touches (dropMark_touches _)
  have swapped : opened.ReferenceLaw :=
    (hs.congr ((late.trans skips).trans mark)).carryOutSwap.congr (.of_touches (openCycle_touches _))
  have ages : SameReferences opened aged := changePoints_references _ _ _
  have calms : SameReferences aged calmed := .of_touches (setGap_touches _ _)
  have foreign : SameReferences calmed expired := .of_touches (expireForeignByCycle_touches _)
  have skipped : SameReferences expired reported := .of_touches (reportSkips_touches _ _)
  have marks : SameReferences reported (reported.setSched { reported.sched with markWaiting := true }) :=
    ⟨rfl, rfl, rfl, rfl, fun _ => ⟨rfl, rfl⟩⟩
  exact swapped.congr ((((ages.trans calms).trans foreign).trans skipped).trans marks)

theorem changeFiltered_references {i : Fin 8} {l : InputLine} (v : Level) (hl : s.lines.records[i].trigger = l.binding)
    (hm : s.lines.records[i].mirror = none) : SameReferences s (changeFiltered i l v s) := by
  have put : ∀ l' : InputLine, l'.binding = l.binding → SameReferences s (putLine i (.input l') s) := fun l' h =>
    putLine_references (h.trans hl.symm) hm.symm
  have triggered : ∀ (m : Mode) (l' : InputLine), (l'.triggered m).binding = l'.binding := fun m l' => by
    unfold InputLine.triggered
    split <;> rfl
  unfold changeFiltered
  dsimp only
  split
  · refine SameReferences.trans ?_ (changeInput_references i (triggered _) _)
    split
    · exact .trans (put { l with filtered := v, differsSince := none, edgeCount := l.edgeCount + 1 } rfl)
        (.of_touches (raiseReport_touches _ _ _))
    · exact put _ rfl
  · exact put _ rfl

theorem seePin_references (i : Fin 8) (v : Level) (s : State) : SameReferences s (seePin i v s) := by
  unfold seePin
  split
  · rename_i l hl
    split
    · exact putLine_references (by rw [hl]; rfl) (by rw [hl]; rfl)
    · split
      · exact changeFiltered_references v (by rw [hl]; rfl) (by rw [hl]; rfl)
      · exact putLine_references (by rw [hl]; rfl) (by rw [hl]; rfl)
  · exact .refl s

theorem takeLasting_references (i : Fin 8) (s : State) : SameReferences s (takeLasting i s) := by
  unfold takeLasting
  split
  · rename_i l hl
    split
    · split
      · exact changeFiltered_references _ (by rw [hl]; rfl) (by rw [hl]; rfl)
      · exact .refl s
    · exact .refl s
  · exact .refl s

theorem forceOutputsSafe_references (s : State) : SameReferences s (forceOutputsSafe s) := by
  refine overAll_keeps (.refl s) fun i _ t ht => ?_
  split
  · rename_i l hl
    exact ht.trans (putLine_references (by rw [hl]; rfl) (by rw [hl]; rfl))
  · exact ht

theorem setPin_references (i : Fin 8) (v : Level) (s : State) : SameReferences s (setPin i v s) :=
  ⟨rfl, rfl, rfl, rfl, fun _ => ⟨rfl, rfl⟩⟩

/-! ## The requests on banks, points and lines -/

/-- R9: a slot in range at a free offset joins the shadow bank. -/
theorem references_addSlot (p : List Byte) (hs : s.ReferenceLaw) : (ownAddSlot p s).1.ReferenceLaw := by
  unfold ownAddSlot
  dsimp only
  split_ifs with pending range declared held room
  · exact hs
  · exact hs
  · exact hs
  · exact hs
  · exact hs
  · obtain ⟨active, ⟨short, ascending, each⟩, rest⟩ := hs
    have apart : ∀ y ∈ s.sched.shadow, y.offset ≠ (slotOf p).offset := by
      intro y hy same
      exact held (slotAt_isSome_iff.2 ⟨y, hy, same⟩)
    refine ⟨active, ⟨?_, insertSlot_ascending ascending apart, ?_⟩, rest⟩
    · change (insertSlot (slotOf p) s.sched.shadow).length ≤ 64
      rw [length_insertSlot]
      exact Nat.lt_of_not_le room
    · intro x hx
      rcases mem_insertSlot.1 hx with rfl | hx
      · have inside : slotInRange s.sched.params.period (slotOf p) = true := by simpa using range
        have named : s.point (slotOf p).key ≠ none := fun none => declared (by rw [none]; rfl)
        exact ⟨inside, named⟩
      · exact each x hx

theorem references_deleteSlot (p : List Byte) (hs : s.ReferenceLaw) : (ownDeleteSlot p s).1.ReferenceLaw := by
  unfold ownDeleteSlot
  split_ifs
  · exact hs
  · exact hs
  · obtain ⟨active, ⟨short, ascending, each⟩, rest⟩ := hs
    refine ⟨active, ⟨?_, ?_, ?_⟩, rest⟩
    · exact (List.length_filter_le _ _).trans short
    · exact ascending.sublist (List.filter_sublist.map _)
    · exact fun x hx => each x (List.mem_filter.1 hx).1

theorem references_replaceShadow {bank : State → List Slot} (lawful : s.ReferenceLaw → s.bankLawful (bank s))
    (hs : s.ReferenceLaw) : (replaceShadow bank s).1.ReferenceLaw := by
  unfold replaceShadow
  split_ifs
  · exact hs
  · obtain ⟨active, -, rest⟩ := id hs
    exact ⟨active, lawful hs, rest⟩

theorem references_swap (hs : s.ReferenceLaw) : (ownSwap s).1.ReferenceLaw := by
  unfold ownSwap
  split
  · exact hs.exchangeBanks
  · split_ifs
    · exact hs
    · exact hs
  · exact hs

theorem Key.before_iff (k l : Key) :
    k.before l = true ↔ k.address < l.address ∨ (k.address = l.address ∧ k.number < l.number) := by
  simp [Key.before]

/-- R70: of two keys one comes before the other, unless they are the same. -/
theorem Key.before_of_not {k l : Key} (h : ¬ k.before l = true) (hn : k ≠ l) : l.before k = true := by
  rw [Key.before_iff] at h ⊢
  have : ¬ (k.address = l.address ∧ k.number = l.number) := fun e => hn (by cases k; cases l; simp_all)
  omega

theorem Key.before_trans {k l m : Key} (h : k.before l = true) (h' : l.before m = true) : k.before m = true := by
  rw [Key.before_iff] at *
  omega

/-- R70: a record of a new key keeps the records in strict key order. -/
theorem insertPoint_ascending {p : Point} {qs : List Point}
    (h : (qs.map (·.key)).Pairwise fun k l => k.before l = true) (fresh : p.key ∉ qs.map (·.key)) :
    ((insertPoint p qs).map (·.key)).Pairwise fun k l => k.before l = true := by
  induction qs with
  | nil => simp [insertPoint]
  | cons q qs ih =>
    obtain ⟨first, rest⟩ := List.pairwise_cons.1 h
    rw [List.map_cons, List.mem_cons, not_or] at fresh
    unfold insertPoint
    split
    · rename_i before
      refine List.pairwise_cons.2 ⟨fun k hk => ?_, h⟩
      rcases List.mem_cons.1 hk with rfl | hk
      · exact before
      · exact Key.before_trans before (first k hk)
    · rename_i after
      refine List.pairwise_cons.2 ⟨fun k hk => ?_, ih rest fresh.2⟩
      obtain ⟨x, hx, rfl⟩ := List.mem_map.1 hk
      rcases mem_insertPoint.1 hx with rfl | hx
      · exact Key.before_of_not after fresh.1
      · exact first _ (List.mem_map_of_mem hx)

@[simp] theorem length_insertPoint (p : Point) (qs : List Point) : (insertPoint p qs).length = qs.length + 1 := by
  induction qs with
  | nil => rfl
  | cons q qs ih =>
    unfold insertPoint
    split
    · rfl
    · simp [ih]

/-- The points change, and every key that is named keeps its record. -/
theorem State.ReferenceLaw.setPoints (hs : s.ReferenceLaw) {ps : List Point}
    (slots : ∀ x ∈ s.sched.active ++ s.sched.shadow, x.key ∈ s.points.map (·.key) → x.key ∈ ps.map (·.key))
    (lines : ∀ (i : Fin 8) k, s.lines.records[i].trigger = some k ∨ s.lines.records[i].mirror = some k →
      k ∈ s.points.map (·.key) → k ∈ ps.map (·.key))
    (ascending : (ps.map (·.key)).Pairwise fun k l => k.before l = true) (few : ps.length ≤ Config.pointCapacity) :
    (s.setPoints ps).ReferenceLaw := by
  obtain ⟨active, shadow, bindings, -, -⟩ := hs
  refine ⟨active.mono (fun _ _ h => h) fun x hx h => ?_, shadow.mono (fun _ _ h => h) fun x hx h => ?_,
    fun i k hk => ?_, ascending, few⟩
  · exact point_ne_none_iff.2 (slots x (List.mem_append_left _ hx) (point_ne_none_iff.1 h))
  · exact point_ne_none_iff.2 (slots x (List.mem_append_right _ hx) (point_ne_none_iff.1 h))
  · exact point_ne_none_iff.2 (lines i k hk (point_ne_none_iff.1 (bindings i k hk)))

theorem references_declare (p : List Byte) (hs : s.ReferenceLaw) : (ownDeclare p s).1.ReferenceLaw := by
  unfold ownDeclare
  dsimp only
  split_ifs with range held room
  · exact hs
  · exact hs
  · exact hs
  · have fresh : keyOf p ∉ s.points.map (·.key) := fun h => held (Option.isSome_iff_ne_none.2 (point_ne_none_iff.2 h))
    have grows : ∀ k ∈ s.points.map (·.key), k ∈ (insertPoint (newPoint (keyOf p) (field8 p 2) (field8 p 3)
        (newQuality (keyOf p).address s)) s.points).map (·.key) := fun k hk => by
      obtain ⟨q, hq, rfl⟩ := List.mem_map.1 hk
      exact List.mem_map_of_mem (mem_insertPoint.2 (.inr hq))
    obtain ⟨-, -, -, ascending, few⟩ := id hs
    refine hs.setPoints (fun x _ => grows _) (fun _ k _ => grows k) (insertPoint_ascending ascending fresh) ?_
    rw [length_insertPoint]
    exact Nat.lt_of_not_le room

theorem mem_allLines (i : Fin 8) : i ∈ allLines := List.mem_of_getElem? (allLines_getElem? i)

/-- R73: where no slot and no line is found to name a point, none does. -/
theorem referenceTo_none {k : Key} (h : referenceTo k s = none) :
    (∀ x ∈ s.sched.active ++ s.sched.shadow, x.key ≠ k) ∧
      ∀ i : Fin 8, s.lines.records[i].trigger ≠ some k ∧ s.lines.records[i].mirror ≠ some k := by
  have banks : ∀ bank : List Slot, slotNaming k bank = none → ∀ x ∈ bank, x.key ≠ k := fun bank h x hx same => by
    rw [slotNaming, Option.map_eq_none_iff] at h
    exact List.find?_eq_none.1 h x hx (beq_iff_eq.2 same)
  have bound : ∀ named : LineRecord → Option Key, lineNaming k named s = none →
      ∀ i : Fin 8, named s.lines.records[i] ≠ some k := fun named h i same => by
    rw [lineNaming, Option.map_eq_none_iff] at h
    exact List.find?_eq_none.1 h i (mem_allLines i) (beq_iff_eq.2 same)
  unfold referenceTo at h
  cases active : slotNaming k s.sched.active with
  | some o => rw [active] at h; cases h
  | none =>
    cases shadow : slotNaming k s.sched.shadow with
    | some o => rw [active, shadow] at h; cases h
    | none =>
      cases triggers : lineNaming k LineRecord.trigger s with
      | some i => rw [active, shadow, triggers] at h; cases h
      | none =>
        cases mirrors : lineNaming k LineRecord.mirror s with
        | some i => rw [active, shadow, triggers, mirrors] at h; cases h
        | none =>
          exact ⟨fun x hx => (List.mem_append.1 hx).elim (banks _ active x) (banks _ shadow x),
            fun i => ⟨bound _ triggers i, bound _ mirrors i⟩⟩

theorem references_withdraw (p : List Byte) (hs : s.ReferenceLaw) : (ownWithdraw p s).1.ReferenceLaw := by
  unfold ownWithdraw
  dsimp only
  split_ifs
  · exact hs
  · exact hs
  · split
    · exact hs
    · rename_i unnamed
      obtain ⟨slots, lines⟩ := referenceTo_none unnamed
      obtain ⟨-, -, -, ascending, few⟩ := id hs
      have stays : ∀ k, k ≠ keyOf p → k ∈ s.points.map (·.key) →
          k ∈ (s.points.filter fun q => q.key != keyOf p).map (·.key) := fun k other hk => by
        obtain ⟨q, hq, rfl⟩ := List.mem_map.1 hk
        exact List.mem_map_of_mem (List.mem_filter.2 ⟨hq, by simpa using other⟩)
      refine hs.setPoints (fun x hx => stays _ (slots x hx)) (fun i k hk => stays k fun same => ?_)
        (ascending.sublist (List.filter_sublist.map _)) ((List.length_filter_le _ _).trans few)
      rcases hk with hk | hk
      · exact (lines i).1 (same ▸ hk)
      · exact (lines i).2 (same ▸ hk)

theorem references_watch (p : List Byte) (hs : s.ReferenceLaw) : (ownWatch p s).1.ReferenceLaw := by
  unfold ownWatch
  split
  · split
    · exact State.ReferenceLaw.congr (s := s) ⟨rfl, rfl, rfl, replacePoint_keys s.points _, fun _ => ⟨rfl, rfl⟩⟩ hs
    · exact hs
  · exact hs

/-- R144, R145: a line takes a record whose bindings name declared points. -/
theorem State.ReferenceLaw.putLine (hs : s.ReferenceLaw) {i : Fin 8} {r : LineRecord}
    (named : ∀ k, r.trigger = some k ∨ r.mirror = some k → s.point k ≠ none) : (putLine i r s).ReferenceLaw := by
  obtain ⟨active, shadow, bindings, rest⟩ := hs
  refine ⟨active, shadow, fun j k hk => ?_, rest⟩
  rw [putLine_records] at hk
  split at hk
  · exact named k hk
  · exact bindings j k hk

@[simp] theorem newMirror_mirror (safe : SafeLevel) (v : Level) (byteIndex bitIndex : Nat) (invert : Bool) (q : Point) :
    (newMirror safe v byteIndex bitIndex invert q).mirror = some q.key := by
  rw [newMirror_eq]
  rfl

theorem references_setLine (p : List Byte) (hs : s.ReferenceLaw) : (ownSetLine p s).1.ReferenceLaw := by
  unfold ownSetLine
  split
  · exact hs
  · rename_i i r _
    unfold configureLine
    split
    · exact hs.putLine (by rintro k (h | h) <;> cases h)
    · exact hs.putLine (by rintro k (h | h) <;> cases h)
    · rename_i b
      split_ifs with declared
      · exact hs
      · refine hs.putLine ?_
        rintro k (h | h)
        · cases h
          exact fun none => declared (by rw [none]; rfl)
        · cases h
    · exact hs.putLine (by rintro k (h | h) <;> cases h)
    · split
      · exact hs
      · rename_i q hq
        split_ifs
        · refine hs.putLine ?_
          rintro k (h | h)
          · cases h
          · rw [newMirror_mirror] at h
            cases h
            rw [(point_some hq).1, hq]
            exact nofun
        · exact hs

theorem references_writeLine (p : List Byte) (hs : s.ReferenceLaw) : (ownWriteLine p s).1.ReferenceLaw := by
  unfold ownWriteLine
  split
  · split
    · rename_i l hl
      exact hs.congr (putLine_references (by rw [hl]; rfl) (by rw [hl]; rfl))
    · exact hs
  · exact hs

theorem State.ReferenceLaw.below (hs : s.ReferenceLaw) :
    ∀ x ∈ s.sched.active ++ s.sched.shadow, x.offset < s.sched.params.value 1 := by
  obtain ⟨⟨-, -, active⟩, ⟨-, -, shadow⟩, -⟩ := hs
  intro x hx
  have range := (List.mem_append.1 hx).elim (fun h => (active x h).1) (fun h => (shadow x h).1)
  simp only [slotInRange, Bool.and_eq_true, decide_eq_true_eq] at range
  exact range.1.1.1.1.2

/-- New parameters keep the law where the period stays above every offset. -/
theorem State.ReferenceLaw.withParams (hs : s.ReferenceLaw) {g : SegmentLine} {c : Nat}
    (rest : t = { s with
      sched := { s.sched with params := t.sched.params }, link := { s.link with silenceStart := c }, seg := g })
    (above : ∀ x ∈ s.sched.active ++ s.sched.shadow, x.offset < t.sched.params.value 1) : t.ReferenceLaw := by
  generalize t.sched.params = params at rest above
  subst rest
  have range : ∀ x ∈ s.sched.active ++ s.sched.shadow, slotInRange s.sched.params.period x = true →
      slotInRange params.period x = true := fun x hx h => by
    simp only [slotInRange, Bool.and_eq_true, decide_eq_true_eq] at h ⊢
    obtain ⟨⟨⟨⟨⟨low, -⟩, a⟩, b⟩, c⟩, d⟩ := h
    exact ⟨⟨⟨⟨⟨low, above x hx⟩, a⟩, b⟩, c⟩, d⟩
  obtain ⟨active, shadow, others⟩ := hs
  exact ⟨active.mono (fun x hx => range x (List.mem_append_left _ hx)) fun _ _ h => h,
    shadow.mono (fun x hx => range x (List.mem_append_right _ hx)) fun _ _ h => h, others⟩

/-- R3: a new period stands above every offset held. -/
theorem references_configure (p : List Byte) (hs : s.ReferenceLaw) : (ownConfigure p s).1.ReferenceLaw := by
  unfold ownConfigure
  dsimp only
  split
  · exact hs
  · rename_i passes
    obtain ⟨allowed, distinct, -⟩ := firstBadEntry_none passes
    obtain ⟨applied, values⟩ := applyParams_applied allowed distinct s
    split
    · rename_i e found
      split_ifs with low
      · exact hs
      · refine hs.withParams applied.rest fun x hx => ?_
        have first : e.1 = 1 := by simpa using List.find?_some found
        rw [← values e (List.mem_of_find?_eq_some found), first] at low
        exact (largestOffset_le_iff.1 le_rfl x hx).trans_lt (Nat.lt_of_not_le low)
    · rename_i absent
      refine hs.withParams applied.rest fun x hx => ?_
      have period := applied.kept 1 fun named => by
        obtain ⟨e, he, first⟩ := List.mem_map.1 named
        exact List.find?_eq_none.1 absent e he (beq_iff_eq.2 first)
      exact (hs.below x hx).trans_eq period.symm

/-! ## Every command keeps the references -/

theorem references_owner (r : RequestName) (p : List Byte) (s : State) (hs : s.ReferenceLaw) : (ownerOf r p s).1.ReferenceLaw := by
  by_cases others : ∀ x ∈ ownerPieces r, x ∉ [Piece.active, .shadow, .params, .points, .lines]
  · exact hs.congr (.of_touches (ownerOf_touches r p s) (others .active · (by simp)) (others .shadow · (by simp))
      (others .params · (by simp)) (others .points · (by simp)) (others .lines · (by simp)))
  · cases r
    case configure => exact references_configure p hs
    case start => exact hs.congr (startCycle_references s)
    case stop => exact hs.congr (stopCycle_references s)
    case addSlot => exact references_addSlot p hs
    case deleteSlot => exact references_deleteSlot p hs
    case clearShadow => exact references_replaceShadow (fun _ => ⟨Nat.zero_le _, .nil, fun _ hx => absurd hx List.not_mem_nil⟩) hs
    case copyActive => exact references_replaceShadow (fun hs => hs.1) hs
    case swap => exact references_swap hs
    case admitStation =>
      refine CommandStable.forAddress (P := State.ReferenceLaw) (fun a u hu => ?_) p hs
      unfold admitEntry
      split
      · exact references_reports.becomeActive _ _ _ _ (hu.congr (.of_touches (setEntry_touches u a _)))
      · exact hu
    case bar =>
      refine CommandStable.forAddress (P := State.ReferenceLaw) (act := fun a u => accept (barEntry a u)) (fun a u hu => ?_) p hs
      change (barEntry a u).ReferenceLaw
      unfold barEntry
      split
      · exact references_reports.loseStation (fun a u hu => hu.congr (.of_touches (loseMessages_touches u a))) a _ _ hu
      · exact hu.congr (.of_touches (setEntry_touches u a _))
    case declare => exact references_declare p hs
    case withdraw => exact references_withdraw p hs
    case watch => exact references_watch p hs
    case setLine => exact references_setLine p hs
    case writeLine => exact references_writeLine p hs
    all_goals exact absurd (by simp [ownerPieces]) others

theorem linesReset_unbound (pins : Vector Level 8) (i : Fin 8) (k : Key) :
    ¬ ((LocalLines.reset pins).records[i].trigger = some k ∨ (LocalLines.reset pins).records[i].mirror = some k) := by
  have off : (LocalLines.reset pins).records[i] = .off := by simp [LocalLines.reset]
  rw [off]
  rintro (h | h) <;> cases h

theorem references_laws : LawStable State.ReferenceLaw where
  frame _ _ h hs := hs.congr (.of_touches h (by simp [slackPieces]) (by simp [slackPieces]) (by simp [slackPieces])
    (by simp [slackPieces]) (by simp [slackPieces]))
  owner r p s hs _ := references_owner r p s hs
  resets c r s := by
    refine ⟨reset_bankLawful, reset_bankLawful, fun i k h => ?_, List.Pairwise.nil, Nat.zero_le _⟩
    exact absurd h (linesReset_unbound s.lines.pins i k)
  holds s hs := by
    obtain ⟨active, shadow, -, rest⟩ := hs
    exact ⟨active, shadow, fun i k h => absurd h (linesReset_unbound s.lines.pins i k), rest⟩
  safe s hs := hs.congr (forceOutputsSafe_references s)
  crosses s hs := hs.crossBoundary
  closes s hs _ _ := hs.congr (endStopping_references s)
  marks s hs _ _ := hs.congr (.of_touches (startMark_touches s))
  slots x s hs _ _ := hs.congr (.of_touches (startSlot_touches x s))
  gap :=
    { drop := fun i k s hs => ⟨references_gap.drop i k s hs.1, by
        have same := dropTrigger_touches s i k .absent
        exact ⟨(same.same .mode (by simp)).trans hs.2.1, (same.same .record (by simp)).trans hs.2.2⟩⟩
      trigger := fun i l k s hs => references_gap.trigger i l k s hs.1
      send := fun c m s hs => references_gap.send c m s hs.1
      fetch := fun a rest s hs => references_gap.fetch a rest s hs.1
      roll := fun a s hs => references_gap.roll a s hs.1 }
  ends o s _ hs _ _ := references_endRecord o s hs
  phase p s r hs _ _ := hs.congr (.of_touches (setRecord_touches s _))
  spoils s r hs _ := hs.congr (.of_touches (setRecord_touches s _))
  sends s r hs _ := hs.congr ⟨rfl, rfl, rfl, rfl, fun _ => ⟨rfl, rfl⟩⟩
  rests v n s hs := hs.congr (.of_touches (returnToIdle_touches v n s))
  pins i v s hs := hs.congr (setPin_references i v s)
  takes i s hs := hs.congr (takeLasting_references i s)
  sees i v s hs := hs.congr (seePin_references i v s)
  filters i l v s hs hl := hs.congr (changeFiltered_references v (by rw [hl]; rfl) (by rw [hl]; rfl))

/-! ## The waiting slots (R6, R20) -/

/-- Slots may have left the waiting ones; what the law of waiting slots speaks of is otherwise the same. -/
structure FewerWaiting (s t : State) : Prop where
  mode : t.sched.mode = s.sched.mode
  cycle : t.sched.cycle = s.sched.cycle
  presented : t.sched.presented = s.sched.presented
  active : t.sched.active = s.sched.active
  waiting : t.sched.waiting.Sublist s.sched.waiting

namespace FewerWaiting

theorem refl (s : State) : FewerWaiting s s := ⟨rfl, rfl, rfl, rfl, .refl _⟩

theorem trans (h : FewerWaiting s t) (h' : FewerWaiting t u) : FewerWaiting s u :=
  ⟨h'.mode.trans h.mode, h'.cycle.trans h.cycle, h'.presented.trans h.presented, h'.active.trans h.active,
    h'.waiting.trans h.waiting⟩

theorem of_touches {ps : List Piece} (h : Touches ps s t) (hm : Piece.mode ∉ ps := by simp) (hc : Piece.cycle ∉ ps := by simp)
    (hp : Piece.presented ∉ ps := by simp) (ha : Piece.active ∉ ps := by simp) (hw : Piece.waiting ∉ ps := by simp) :
    FewerWaiting s t :=
  ⟨h.same _ hm, (h.same .cycle hc).1, h.same _ hp, h.same _ ha, by rw [h.same .waiting hw]⟩

theorem law (h : FewerWaiting s t) (hs : s.WaitingLaw) : t.WaitingLaw := by
  obtain ⟨none, ascending, each⟩ := hs
  refine ⟨fun hm => ?_, ascending.sublist h.waiting, fun o ho => ?_⟩
  · have waiting := h.waiting
    rw [none (h.mode ▸ hm)] at waiting
    exact List.sublist_nil.1 waiting
  · rw [h.presented, h.active, h.cycle]
    exact each o (h.waiting.subset ho)

end FewerWaiting

theorem skipWaitingSlots_fewer (a : Nat) (s : State) : FewerWaiting s (skipWaitingSlots a s) := by
  unfold skipWaitingSlots
  extract_lets lost counted
  have counts : Touches [.counts] s counted := overAll_touches fun _ _ => countAbsent_touches _
  refine (FewerWaiting.of_touches counts).trans ⟨rfl, rfl, rfl, rfl, List.filter_sublist⟩

theorem loseStation_fewer (a : Nat) (x : RosterState) (c : LostCause) (s : State) : FewerWaiting s (loseStation a x c s) := by
  have entry := FewerWaiting.of_touches (setEntry_touches s a { s.entry a with state := x })
  refine (entry.trans (.of_touches (raiseReport_touches _ .deviceLost (deviceLostBody a c (s.entry a))))).trans
    ((skipWaitingSlots_fewer a _).trans ?_)
  refine (FewerWaiting.of_touches (removeAttention_touches _ a)).trans ((FewerWaiting.of_touches (loseMessages_touches _ a)).trans ?_)
  exact (FewerWaiting.of_touches (publisherGone_touches _ a)).trans (.of_touches (dropLostTriggers_touches _ a))

theorem workOutcome_fewer (a : Nat) (o : TxnOutcome) (s : State) : FewerWaiting s (workOutcome a o s) := by
  have counts : FewerWaiting s (if s.stationActive a then countMiss a s else s) := by
    split
    · have entry := FewerWaiting.of_touches (setEntry_touches s a { s.entry a with miss := (s.entry a).miss + 1 })
      unfold countMiss
      dsimp only
      split
      · exact entry.trans (loseStation_fewer a _ _ _)
      · exact entry
    · exact .refl s
  cases o with
  | answered x flag inverted =>
    refine FewerWaiting.trans ?_ (.of_touches (takePolarity_touches _ a inverted))
    split
    · exact .of_touches (setEntry_touches s a _)
    · exact .refl s
  | miss => exact counts
  | garbled => exact counts
  | wrong => exact counts
  | sent => exact .refl s
  | collision => exact .refl s
  | echoLost => exact .refl s
  | abandoned => exact .refl s

theorem rosterStep_fewer (r : Record) (o : TxnOutcome) (s : State) : FewerWaiting s (rosterStep r o s) := by
  unfold rosterStep
  split
  · exact .refl s
  · exact .of_touches (rollOutcome_touches s _ o)
  · exact workOutcome_fewer _ o s

theorem endRecord_fewer (o : TxnOutcome) (s : State) : FewerWaiting s (endRecord o s) := by
  unfold endRecord
  split
  · exact .refl s
  · rename_i r _
    extract_lets owned src cleared delivered
    have ended : FewerWaiting s cleared :=
      (FewerWaiting.of_touches (setRecord_touches s (some { r with phase := .ended }))).trans
        (.of_touches (clearOnLine_touches _ r))
    refine (ended.trans ((rosterStep_fewer r o cleared).trans ?_)).trans (.of_touches (setRecord_touches delivered none))
    refine (FewerWaiting.of_touches (cacheStep_touches _ r o)).trans ((FewerWaiting.of_touches (attentionStep_touches _ r o)).trans ?_)
    exact .of_touches (ownerStep_touches _ r o owned)

theorem leaveSending_fewer (r : Record) (v : EchoVerdict) (n : Nat) (s : State) : FewerWaiting s (leaveSending r v n s) := by
  unfold leaveSending
  split
  · exact endRecord_fewer _ s
  · split
    · split
      · exact endRecord_fewer _ s
      · exact .of_touches (setRecord_touches s _)
    · exact endRecord_fewer _ s
    · exact endRecord_fewer _ s

theorem abandonRecord_fewer (s : State) : FewerWaiting s (abandonRecord s) := by
  unfold abandonRecord
  split
  · exact .refl s
  · split
    · exact .of_touches (setRecord_touches s _)
    · exact endRecord_fewer _ s

theorem waiting_verdicts : VerdictStable State.WaitingLaw where
  raise _ _ s hs := (FewerWaiting.of_touches (raiseReport_touches s _ _)).law hs
  foreign s hs := (FewerWaiting.of_touches (activate_touches s _)).law hs
  frame _ _ h hs := (FewerWaiting.of_touches h).law hs
  ends o s _ hs _ _ := (endRecord_fewer o s).law hs

theorem waitingLaw_none (h : s.sched.waiting = []) : s.WaitingLaw :=
  ⟨fun _ => h, by rw [h]; exact .nil, by rw [h]; exact fun _ ho => absurd ho List.not_mem_nil⟩

/-- R14: in CONFIG no slot waits, so the banks are exchanged at once. -/
theorem waiting_swap (hs : s.WaitingLaw) : (ownSwap s).1.WaitingLaw := by
  unfold ownSwap
  split
  · rename_i config
    exact waitingLaw_none (hs.1 (by rw [config]; decide))
  · split_ifs
    · exact hs
    · exact hs
  · exact hs

theorem stopCycle_waiting (s : State) : (stopCycle s).WaitingLaw := by
  have stopped : (s.setSched { s.sched with mode := .stopping, markWaiting := false, waiting := [] }).WaitingLaw :=
    waitingLaw_none rfl
  exact ((FewerWaiting.of_touches (changePoints_touches _ _ _)).trans (.of_touches (evaluateForeign_touches _))).law stopped

theorem waiting_owner (r : RequestName) (p : List Byte) (s : State) (hs : s.WaitingLaw) : (ownerOf r p s).1.WaitingLaw := by
  by_cases others : ∀ x ∈ ownerPieces r, x ∉ [Piece.mode, .cycle, .presented, .active, .waiting]
  · exact (FewerWaiting.of_touches (ownerOf_touches r p s) (others .mode · (by simp)) (others .cycle · (by simp))
      (others .presented · (by simp)) (others .active · (by simp)) (others .waiting · (by simp))).law hs
  · cases r
    case start => exact waitingLaw_none rfl
    case stop => exact stopCycle_waiting s
    case swap => exact waiting_swap hs
    case bar =>
      refine CommandStable.forAddress (P := State.WaitingLaw) (act := fun a u => accept (barEntry a u)) (fun a u hu => ?_) p hs
      change (barEntry a u).WaitingLaw
      unfold barEntry
      split
      · exact (loseStation_fewer a _ _ u).law hu
      · exact (FewerWaiting.of_touches (setEntry_touches u a _)).law hu
    all_goals exact absurd (by simp [ownerPieces]) others

/-- R16: the cycle that opens finds no slot waiting. -/
theorem crossBoundary_waiting (s : State) : (crossBoundary s).WaitingLaw := by
  refine waitingLaw_none ?_
  unfold crossBoundary
  extract_lets ended dropped opened aged gap calmed expired reported
  have swapped : (carryOutSwap dropped).sched.waiting = dropped.sched.waiting := (carryOutSwap_touches dropped).same .waiting (by simp)
  have ages : aged.sched.waiting = opened.sched.waiting := (changePoints_touches _ _ _).same .waiting (by simp)
  have foreign : expired.sched.waiting = calmed.sched.waiting := (expireForeignByCycle_touches _).same .waiting (by simp)
  have skips : reported.sched.waiting = expired.sched.waiting := (reportSkips_touches _ _).same .waiting (by simp)
  have none : dropped.sched.waiting = [] := (dropMark_touches _).same .waiting (by simp)
  exact skips.trans (foreign.trans (ages.trans (swapped.trans none)))

/-- R7: what ends STOPPING leaves no slot waiting, as none waited. -/
theorem endStopping_waiting (hs : s.WaitingLaw) (hm : s.sched.mode = .stopping) : (endStopping s).WaitingLaw := by
  have same := endStopping_touches s
  exact waitingLaw_none ((same.same .waiting (by simp [stoppingEndPieces])).trans (hs.1 (by rw [hm]; decide)))

/-- R20: a slot whose nominal time comes is presented, and waits if its station is ACTIVE. -/
theorem presentSlot_waiting {o : Nat} {x : Slot} (hx : slotComing o s = some x) (hm : s.sched.mode = .run)
    (hs : s.WaitingLaw) : (presentSlot x s).WaitingLaw := by
  obtain ⟨-, ascending, each⟩ := hs
  unfold slotComing at hx
  obtain ⟨found, comes⟩ := Option.filter_eq_some_iff.1 hx
  simp only [Slot.due, Bool.and_eq_true, Bool.not_eq_true', beq_iff_eq] at comes
  obtain ⟨due, fresh⟩ := comes
  obtain rfl : x.offset = o := by simpa using List.find?_some found
  have later : ∀ p ∈ s.sched.waiting, p ∈ insertOffset x.offset s.sched.presented ∧
      ∃ y, slotAt s.sched.active p = some y ∧ s.sched.cycle.toNat % y.divisor = y.phase :=
    fun p hp => ⟨mem_insertOffset.2 (.inr (each p hp).1), (each p hp).2⟩
  have fresh : x.offset ∉ s.sched.waiting := fun hw => by simp [(each _ hw).1] at fresh
  unfold presentSlot
  dsimp only
  split
  · refine ⟨fun h => absurd hm h, insertOffset_ascending ascending fresh, fun p hp => ?_⟩
    rcases mem_insertOffset.1 hp with rfl | hp
    · exact ⟨mem_insertOffset.2 (.inl rfl), x, found, due⟩
    · exact later p hp
  · exact (FewerWaiting.of_touches (countAbsent_touches _)).law (s := s.setSched
      { s.sched with presented := insertOffset x.offset s.sched.presented }) ⟨fun h => absurd hm h, ascending, later⟩

theorem waiting_command (c : Instr) (s t : State) (hs : s.WaitingLaw) (he : exec c s = .next t) : t.WaitingLaw := by
  obtain ⟨ps, v⟩ := commandView c
  by_cases others : ∀ x ∈ ps, x ∉ [Piece.mode, .cycle, .presented, .active, .waiting]
  · exact (FewerWaiting.of_touches (exec_touches v he) (others .mode · (by simp)) (others .cycle · (by simp))
      (others .presented · (by simp)) (others .active · (by simp)) (others .waiting · (by simp))).law hs
  have reached : ∀ n, (s.reach n).WaitingLaw := fun n => (FewerWaiting.of_touches (reach_touches s n)).law hs
  have less : ∀ o u, FewerWaiting u (u.setSched { u.sched with waiting := u.sched.waiting.filter (· != o) }) := fun o u =>
    ⟨rfl, rfl, rfl, rfl, List.filter_sublist⟩
  have sent : (finishFrame s).WaitingLaw :=
    finishFrame_keeps (fun _ _ ht hs => (FewerWaiting.of_touches ht).law hs) (fun _ _ _ => waitingLaw_none rfl) hs
  cases v
  case request r num p =>
    rw [exec_request] at he
    cases he
    exact takeRequest_keeps (fun u l hu => (FewerWaiting.of_touches (setLink_touches u l)).law hu)
      (fun u hu => (FewerWaiting.of_touches (deactivate_touches u .hostSilent)).law hu)
      (fun u _ _ _ hu => waiting_owner r p u hu) hs
  case segmentFrameReceived xs => exact waiting_verdicts.segmentFrameReceived he hs
  case startDelimiterTimeout => exact waiting_verdicts.startDelimiterTimeout he hs
  case lineQuiet => exact waiting_verdicts.lineQuiet he hs
  all_goals obtain rfl := Host.Outcome.next.inj he
  case hardReset cause => exact waitingLaw_none rfl
  case unknownRequest => exact absurd (by simp) others
  case linkByteReceived => exact absurd (by simp) others
  case resetPinAsserted => exact absurd (by simp) others
  case localLinePinChange => exact absurd (by simp) others
  all_goals refine unlessInReset_keeps hs fun _ => ?_
  case linkFrameSent => exact sent
  case linkRateChange =>
    split
    · exact sent
    · exact hs
  case softReset =>
    split
    · exact sent
    · exact hs
  case boundary =>
    split
    · exact crossBoundary_waiting _
    · exact hs
  case slotDue o _ =>
    split
    · rename_i x hx
      split
      · rename_i run
        exact presentSlot_waiting (s := s.reach (s.nominalAt o)) hx run (reached _)
      · exact hs
    · exact hs
  case slotStart =>
    split
    · rename_i x _
      split
      · exact ((less x.offset s).trans (.of_touches (handOver_touches _ _ _ _ _ _))).law hs
      · exact hs
    · exact hs
  case slotLate o _ =>
    split
    · exact ((less o _).trans (.of_touches (recordSkip_touches _ o .late))).law (reached (slotSpanEnd o s))
    · exact hs
  case stoppingEnd =>
    split
    · rename_i hc
      exact endStopping_waiting hs hc.1
    · exact hs
  case waitingLineTimeout =>
    split
    · split
      · exact (endRecord_fewer _ _).law (reached _)
      · exact hs
    · exact hs
  case answerWindowExpired =>
    split
    · split
      · exact (endRecord_fewer _ _).law (reached _)
      · exact hs
    · exact hs
  case echoVerdict =>
    split
    · refine (leaveSending_fewer _ _ _ _).law ((FewerWaiting.of_touches (followEcho_touches _ _)).law ?_)
      exact (FewerWaiting.of_touches (returnToIdle_touches _ _ _)).law (reached _)
    · exact hs
  case babbleDetected =>
    split
    · refine (abandonRecord_fewer _).law ((FewerWaiting.of_touches (raiseReport_touches _ _ _)).law ?_)
      exact ((FewerWaiting.of_touches (setFault_touches true _)).trans (.of_touches (activate_touches _ _))).law (reached _)
    · exact hs
  all_goals exact absurd (by simp [gapPieces]) others

/-- Settles O58: the law of references and the law of the waiting slots are each kept by every command. -/
theorem everyStepKeepsReferences : Obligations.EveryStepKeepsReferences := fun _ _ h =>
  ⟨fun hs => step_keeps (P := State.ReferenceLaw) (fun _ _ hs => hs) (fun _ hs => hs) references_laws.command hs h,
    fun hs => step_keeps (P := State.WaitingLaw) (fun _ _ hs => hs) (fun _ hs => hs) waiting_command hs h⟩

end Sys2Proof.Machine
end

section
/-! PROOFS. Identities, the attention list and the probe pointer (R48, R50, R116). -/

-- One theorem after another: theorems checked side by side would each hold a thread.
set_option Elab.async false

namespace Sys2Proof.Machine

variable {s t u : State}

/-! ## What the law of identities asks of a change -/

/-- R50: the entry stands for a station whose identity counts. -/
def RosterEntry.occupied (e : RosterEntry) : Prop := e.state = .active ∨ e.state = .held

theorem State.entry_of_touches {ps : List Piece} (h : Touches ps s t) (he : Piece.entries ∉ ps := by simp) (a : Nat) :
    t.entry a = s.entry a := by
  unfold State.entry
  rw [h.same .entries he]

theorem State.IdentityLaw.congr (hs : s.IdentityLaw) {ps : List Piece} (h : Touches ps s t)
    (he : Piece.entries ∉ ps := by simp) (ha : Piece.attention ∉ ps := by simp) (hp : Piece.pointer ∉ ps := by simp) :
    t.IdentityLaw := by
  have entry := State.entry_of_touches h he
  have attention : t.attention = s.attention := h.same _ ha
  have pointer : t.roster.probePointer = s.roster.probePointer := h.same _ hp
  simp only [State.IdentityLaw, State.stationActive, entry, attention, pointer] at hs ⊢
  exact hs

/-- An entry is replaced, and stations may leave the attention list. -/
theorem State.IdentityLaw.become (hs : s.IdentityLaw) {a : Nat} {e : RosterEntry}
    (entry : ∀ b, t.entry b = (s.setEntry a e).entry b) (listed : t.attention.Sublist s.attention)
    (pointer : t.roster.probePointer = s.roster.probePointer)
    (own : e.occupied → e.seen ≠ none ∧ ∀ b, b ≠ a → (s.entry b).occupied → (s.entry b).seen ≠ e.seen)
    (active : a ∈ t.attention → s.stationActive a = true → e.state = .active) : t.IdentityLaw := by
  obtain ⟨seen, distinct, once, present, pointed⟩ := hs
  by_cases range : 1 ≤ a ∧ a ≤ 62
  · have self : t.entry a = e := by rw [entry, entry_setEntry, if_pos ⟨rfl, range⟩]
    have other : ∀ b, b ≠ a → t.entry b = s.entry b := fun b hb => by rw [entry, entry_setEntry, if_neg fun h => hb h.1]
    refine ⟨fun b hb => ?_, fun b c hbc hb hc => ?_, once.sublist listed, fun b hb => ?_, by rwa [pointer]⟩
    · by_cases ha : b = a
      · subst ha
        rw [self] at hb ⊢
        exact (own hb).1
      · rw [other b ha] at hb ⊢
        exact seen b hb
    · by_cases ha : b = a
      · subst ha
        rw [self] at hb ⊢
        rw [other c hbc.symm] at hc ⊢
        exact ((own hb).2 c hbc.symm hc).symm
      · rw [other b ha] at hb ⊢
        by_cases hca : c = a
        · subst hca
          rw [self] at hc ⊢
          exact (own hc).2 b ha hb
        · rw [other c hca] at hc ⊢
          exact distinct b c hbc hb hc
    · have before := present b (listed.subset hb)
      by_cases ha : b = a
      · subst ha
        rw [State.stationActive, self, active hb before]
        rfl
      · rw [State.stationActive, other b ha]
        exact before
  · have same : ∀ b, t.entry b = s.entry b := fun b => by rw [entry, entry_setEntry, if_neg fun h => range h.2]
    simp only [State.IdentityLaw, State.stationActive, same, pointer]
    exact ⟨seen, distinct, once.sublist listed, fun b hb => present b (listed.subset hb), pointed⟩

/-- An entry takes another state or another identity, which no other station shows. -/
theorem State.IdentityLaw.setEntry (hs : s.IdentityLaw) {a : Nat} {e : RosterEntry}
    (own : e.occupied → e.seen ≠ none ∧ ∀ b, b ≠ a → (s.entry b).occupied → (s.entry b).seen ≠ e.seen)
    (active : s.stationActive a = true → e.state = .active) : (s.setEntry a e).IdentityLaw := by
  refine hs.become (a := a) (e := e) (fun _ => rfl) ?_ ?_ own fun _ => active
  · rw [(setEntry_touches s a e).same .attention (by simp)]
  · rw [(setEntry_touches s a e).same .pointer (by simp)]

/-- An entry keeps its state and its seen identity. -/
theorem State.IdentityLaw.refine (hs : s.IdentityLaw) {a : Nat} {e : RosterEntry} (state : e.state = (s.entry a).state)
    (seen : e.seen = (s.entry a).seen) : (s.setEntry a e).IdentityLaw := by
  obtain ⟨known, distinct, -⟩ := id hs
  refine hs.setEntry (fun h => ?_) fun h => state.trans (by simpa [State.stationActive] using h)
  rw [RosterEntry.occupied, state] at h
  rw [seen]
  exact ⟨known a h, fun b hb ho => distinct b a hb ho h⟩

/-- An entry whose station is not ACTIVE leaves the states that count. -/
theorem State.IdentityLaw.leave (hs : s.IdentityLaw) {a : Nat} {e : RosterEntry} (gone : ¬ e.occupied)
    (idle : s.stationActive a = false) : (s.setEntry a e).IdentityLaw :=
  hs.setEntry (fun h => absurd h gone) fun h => by rw [idle] at h; cases h

/-! ## The roster's operations -/

theorem identities_takePolarity (a : Nat) (b : Bool) (hs : s.IdentityLaw) : (takePolarity a b s).IdentityLaw := by
  unfold takePolarity
  dsimp only
  split
  · exact hs
  · have turned : (s.setEntry a { s.entry a with inverted := b }).IdentityLaw := hs.refine rfl rfl
    exact turned.congr (raiseReport_touches _ _ _)

/-- R51: an identity that no other station shows makes the entry ACTIVE. -/
theorem identities_becomeActive {a : Nat} {i : Identity} (rejoin admitted : Bool) (hs : s.IdentityLaw)
    (free : ∀ b, b ≠ a → (s.entry b).occupied → (s.entry b).seen ≠ some i) : (becomeActive a i rejoin admitted s).IdentityLaw := by
  refine State.IdentityLaw.congr (State.IdentityLaw.congr (hs.setEntry (fun _ => ⟨Option.some_ne_none i, free⟩) fun _ => rfl)
    (publisherActive_touches _ a)) (raiseReport_touches _ _ _)

theorem identities_becomeHeld {a : Nat} {i : Identity} (r : HeldReason) (hs : s.IdentityLaw) (idle : s.stationActive a = false)
    (free : ∀ b, b ≠ a → (s.entry b).occupied → (s.entry b).seen ≠ some i) : (becomeHeld a i r s).IdentityLaw :=
  State.IdentityLaw.congr (hs.setEntry (fun _ => ⟨Option.some_ne_none i, free⟩) fun h => by rw [idle] at h; cases h)
    (raiseReport_touches _ _ _)

/-- R48: there is no entry but at a station's address. -/
theorem entry_occupied_range {b : Nat} (h : (s.entry b).occupied) : 1 ≤ b ∧ b ≤ 62 := by
  by_contra outside
  rw [entry_outside (by omega)] at h
  rcases h with h | h <;> cases h

theorem mem_stationAddresses {a : Nat} : a ∈ stationAddresses ↔ 1 ≤ a ∧ a ≤ 62 := by
  simp only [stationAddresses, Config.stationCount, List.mem_map, List.mem_range]
  constructor
  · rintro ⟨n, hn, rfl⟩
    omega
  · rintro ⟨low, high⟩
    exact ⟨a - 1, by omega, by omega⟩

/-- R50: where no other ACTIVE or HELD entry is found to show an identity, none does. -/
theorem holderOf_none {a : Nat} {i : Identity} (h : holderOf a i s = none) :
    ∀ b, b ≠ a → (s.entry b).occupied → (s.entry b).seen ≠ some i := by
  intro b hb occupied same
  obtain ⟨low, high⟩ := entry_occupied_range occupied
  refine List.find?_eq_none.1 h b (mem_stationAddresses.2 ⟨low, high⟩) ?_
  rcases occupied with e | e <;> simp [hb, e, same]

theorem identities_takeIdentity {a : Nat} {i : Identity} (hs : s.IdentityLaw) (idle : s.stationActive a = false) :
    (takeIdentity a i s).IdentityLaw := by
  unfold takeIdentity
  split
  · exact hs.congr (raiseReport_touches _ _ _)
  · rename_i nobody
    have free := holderOf_none nobody
    split
    · exact identities_becomeActive _ _ hs free
    · split
      · split
        · exact identities_becomeActive _ _ hs free
        · exact identities_becomeHeld _ hs idle free
      · split
        · exact identities_becomeActive _ _ hs free
        · exact identities_becomeHeld _ hs idle free

theorem identities_countClash (a : Nat) (hs : s.IdentityLaw) : (countClash a s).IdentityLaw := by
  have counted : (s.setEntry a { s.entry a with clash := min 255 ((s.entry a).clash + 1) }).IdentityLaw := hs.refine rfl rfl
  unfold countClash
  dsimp only
  split
  · exact counted.congr (raiseReport_touches _ _ _)
  · exact counted

theorem lossConsequences_attention (a : Nat) (s : State) : (lossConsequences a s).attention = s.attention.filter (· != a) := by
  have keeps : ∀ u : State, (dropLostTriggers a (publisherGone a (loseMessages a u))).attention = u.attention := fun u => by
    have lines := (dropLostTriggers_touches (publisherGone a (loseMessages a u)) a).same .attention (by simp)
    have points := (publisherGone_touches (loseMessages a u) a).same .attention (by simp)
    have messages := (loseMessages_touches u a).same .attention (by simp)
    exact lines.trans (points.trans messages)
  have slots : (skipWaitingSlots a s).attention = s.attention := (skipWaitingSlots_touches s a).same .attention (by simp)
  unfold lossConsequences
  rw [keeps, ← slots]
  rfl

/-- R58, R59: a lost station leaves the attention list. -/
theorem identities_loseStation (a : Nat) {x : RosterState} (c : LostCause) (hs : s.IdentityLaw) (hx : x ≠ .active)
    (hh : x ≠ .held) : (loseStation a x c s).IdentityLaw := by
  have attention : (loseStation a x c s).attention = s.attention.filter (· != a) := by
    refine (lossConsequences_attention a _).trans (congrArg (List.filter (· != a)) ?_)
    exact ((raiseReport_touches _ _ _).same .attention (by simp)).trans ((setEntry_touches s a _).same .attention (by simp))
  refine hs.become (a := a) (e := { s.entry a with state := x }) (fun b => ?_) (by rw [attention]; exact List.filter_sublist) ?_
    (fun h => absurd h (not_or.2 ⟨hx, hh⟩)) fun h => ?_
  · exact (State.entry_of_touches (lossConsequences_touches _ a) (by simp [lossPieces]) b).trans
      (State.entry_of_touches (raiseReport_touches _ _ _) (by simp) b)
  · exact (loseStation_touches s a x c).same .pointer (by simp [outcomePieces, lossPieces])
  · rw [attention] at h
    simp at h

theorem identities_workOutcome (a : Nat) (o : TxnOutcome) (hs : s.IdentityLaw) : (workOutcome a o s).IdentityLaw := by
  have counts : (if s.stationActive a then countMiss a s else s).IdentityLaw := by
    split
    · have entry : (s.setEntry a { s.entry a with miss := (s.entry a).miss + 1 }).IdentityLaw := hs.refine rfl rfl
      unfold countMiss
      dsimp only
      split
      · exact identities_loseStation a _ entry (by decide) (by decide)
      · exact entry
    · exact hs
  cases o with
  | answered x flag inverted =>
    refine identities_takePolarity a inverted ?_
    split
    · exact hs.refine rfl rfl
    · exact hs
  | miss => exact counts
  | garbled => exact counts
  | wrong => exact counts
  | sent => exact hs
  | collision => exact hs
  | echoLost => exact hs
  | abandoned => exact hs

theorem identities_rollOutcome (a : Nat) (o : TxnOutcome) (hs : s.IdentityLaw) : (rollOutcome a o s).IdentityLaw := by
  unfold rollOutcome
  split
  · rename_i open_
    have idle : s.stationActive a = false := by
      unfold State.stationActive
      rcases open_ with h | h <;> rw [h] <;> rfl
    split
    · exact identities_takePolarity a _ (identities_takeIdentity hs idle)
    · exact identities_countClash a hs
    · exact hs
  · split
    · exact identities_takePolarity a _ hs
    · exact hs

theorem identities_rosterStep (r : Record) (o : TxnOutcome) (hs : s.IdentityLaw) : (rosterStep r o s).IdentityLaw := by
  unfold rosterStep
  split
  · exact hs
  · exact identities_rollOutcome _ o hs
  · exact identities_workOutcome _ o hs

/-- R116: an ACTIVE station that asks for attention joins the list once. -/
theorem identities_attentionStep (r : Record) (o : TxnOutcome) (hs : s.IdentityLaw) : (attentionStep r o s).IdentityLaw := by
  unfold attentionStep
  split
  · split
    · rename_i joins
      obtain ⟨seen, distinct, once, present, pointed⟩ := hs
      refine ⟨seen, distinct, List.nodup_append.2 ⟨once, List.nodup_singleton _, ?_⟩, fun b hb => ?_, pointed⟩
      · rintro b hb c hc rfl
        exact joins.2 (List.mem_singleton.1 hc ▸ hb)
      · rcases List.mem_append.1 hb with hb | hb
        · exact present b hb
        · rw [List.mem_singleton.1 hb]
          exact joins.1
    · exact hs
  · exact hs

theorem identities_endRecord (o : TxnOutcome) (s : State) (hs : s.IdentityLaw) : (endRecord o s).IdentityLaw := by
  unfold endRecord
  split
  · exact hs
  · rename_i r _
    extract_lets owned src cleared delivered
    have ended : cleared.IdentityLaw :=
      State.IdentityLaw.congr (hs.congr (setRecord_touches s (some { r with phase := .ended }))) (clearOnLine_touches _ r)
    have told : (attentionStep r o (cacheStep r o (rosterStep r o cleared))).IdentityLaw :=
      identities_attentionStep r o ((identities_rosterStep r o ended).congr (cacheStep_touches _ r o))
    exact State.IdentityLaw.congr (told.congr (ownerStep_touches _ r o owned)) (setRecord_touches delivered none)

/-! ## The requests, STOPPING and the probes -/

theorem identities_admitEntry (a : Nat) (s : State) (hs : s.IdentityLaw) : (admitEntry a s).1.IdentityLaw := by
  unfold admitEntry
  split
  · rename_i i held seen
    have expected : (s.setEntry a { s.entry a with expected := some i }).IdentityLaw := hs.refine rfl rfl
    refine identities_becomeActive _ _ expected fun b hb occupied => ?_
    obtain ⟨-, distinct, -⟩ := hs
    have other : (s.setEntry a { s.entry a with expected := some i }).entry b = s.entry b := by
      rw [entry_setEntry, if_neg fun h => hb h.1]
    rw [other] at occupied ⊢
    rw [← seen]
    exact distinct b a hb occupied (.inr held)
  · exact hs

theorem identities_barEntry (a : Nat) (s : State) (hs : s.IdentityLaw) : (barEntry a s).IdentityLaw := by
  unfold barEntry
  split
  · exact identities_loseStation a _ hs (by decide) (by decide)
  · rename_i idle
    exact hs.leave (by rintro (h | h) <;> cases h) (by simpa using idle)

theorem identities_unbarEntry (a : Nat) (s : State) (hs : s.IdentityLaw) : (unbarEntry a s).1.IdentityLaw := by
  unfold unbarEntry
  split
  · rename_i barred
    exact hs.leave (by rintro (h | h) <;> cases h) (by rw [State.stationActive, barred]; rfl)
  · exact hs

/-- R5, R48: START points the probes at address 1. -/
theorem identities_startCycle (hs : s.IdentityLaw) : (startCycle s).IdentityLaw := by
  obtain ⟨seen, distinct, once, present, -⟩ := hs
  have pointed : (s.setRoster { s.roster with probePointer := 1 }).IdentityLaw :=
    ⟨seen, distinct, once, present, Nat.le_refl 1, (by decide : 1 ≤ 62)⟩
  have sourced := pointed.congr (changePoints_touches _ (Point.withQuality .noSource) s.points)
  exact sourced

theorem identities_stopCycle (hs : s.IdentityLaw) : (stopCycle s).IdentityLaw := by
  have stopped : (s.setSched { s.sched with mode := .stopping, markWaiting := false, waiting := [] }).IdentityLaw := hs
  exact State.IdentityLaw.congr (stopped.congr (changePoints_touches _ _ _)) (evaluateForeign_touches _)

/-- R67: an entry that counts after STOPPING is as it was. -/
theorem settleRoster_occupied {b : Nat} (h : ((settleRoster s).entry b).occupied) : (settleRoster s).entry b = s.entry b := by
  refine overAll_keeps (P := fun u => (u.entry b).occupied → u.entry b = s.entry b) (fun _ => rfl) (fun a _ u hu h => ?_) h
  rw [entry_setEntry] at h ⊢
  split at h
  · refine absurd h ?_
    unfold RosterEntry.afterStop
    split <;> (rename_i was; simp [RosterEntry.occupied, was])
  · rename_i other
    rw [if_neg other]
    exact hu h

/-- R67, R121: the entries are settled and the attention list emptied. -/
theorem identities_settled (hs : s.IdentityLaw) : ((settleRoster s).setAttention []).IdentityLaw := by
  obtain ⟨seen, distinct, -, -, pointed⟩ := hs
  have counts : ∀ b, ((settleRoster s).entry b).occupied → (settleRoster s).entry b = s.entry b := fun b => settleRoster_occupied
  have pointer : (settleRoster s).roster.probePointer = s.roster.probePointer := (settleRoster_touches s).same .pointer (by simp)
  generalize settleRoster s = settled at counts pointer
  refine ⟨fun b hb => ?_, fun b c hbc hb hc => ?_, List.nodup_nil, fun b hb => absurd hb List.not_mem_nil, ?_⟩
  · have same := counts b hb
    change (settled.entry b).state = .active ∨ (settled.entry b).state = .held at hb
    change (settled.entry b).seen ≠ none
    rw [same] at hb ⊢
    exact seen b hb
  · have sameB := counts b hb
    have sameC := counts c hc
    change (settled.entry b).state = .active ∨ (settled.entry b).state = .held at hb
    change (settled.entry c).state = .active ∨ (settled.entry c).state = .held at hc
    change (settled.entry b).seen ≠ (settled.entry c).seen
    rw [sameB] at hb ⊢
    rw [sameC] at hc ⊢
    exact distinct b c hbc hb hc
  · change 1 ≤ settled.roster.probePointer ∧ settled.roster.probePointer ≤ Config.stationCount
    rw [pointer]
    exact pointed

theorem identities_endStopping (hs : s.IdentityLaw) : (endStopping s).IdentityLaw := by
  unfold endStopping
  extract_lets sched opened swapped settled unattended aborted untriggered evaluated
  have swap : swapped.IdentityLaw := State.IdentityLaw.congr (s := opened) hs (discardSwap_touches _)
  have messages : aborted.IdentityLaw := (identities_settled swap).congr (abortMessages_touches _)
  have lines : untriggered.IdentityLaw := messages.congr (clearTriggers_touches _)
  have foreign : evaluated.IdentityLaw := lines.congr (evaluateForeign_touches _)
  exact foreign.congr (raiseReport_touches _ _ _)

/-- R98: a FETCH takes the first station off the list. -/
theorem identities_startFetch {a : Nat} {rest : List Nat} (ha : s.attention = a :: rest) (hs : s.IdentityLaw) :
    (startFetch a rest s).IdentityLaw := by
  obtain ⟨seen, distinct, once, present, pointed⟩ := hs
  rw [ha] at once present
  exact ⟨seen, distinct, (List.nodup_cons.1 once).2, fun b hb => present b (List.mem_cons_of_mem a hb), pointed⟩

/-- R48: the pointer goes past the address that is probed, from 62 to 1. -/
theorem identities_startRoll {a : Nat} (ha : s.probeCandidate = some a) (hs : s.IdentityLaw) : (startRoll a s).IdentityLaw := by
  obtain ⟨seen, distinct, once, present, low, high⟩ := hs
  obtain ⟨⟨above, below, -⟩, -⟩ := (State.probeCandidate_eq_some_iff low high).1 ha
  refine ⟨seen, distinct, once, present, ?_⟩
  change 1 ≤ pointerPast a ∧ pointerPast a ≤ 62
  unfold pointerPast
  split
  · omega
  · rename_i other
    change ¬ a = 62 at other
    omega

theorem identities_owner (r : RequestName) (p : List Byte) (s : State) (hs : s.IdentityLaw) : (ownerOf r p s).1.IdentityLaw := by
  by_cases others : ∀ x ∈ ownerPieces r, x ∉ [Piece.entries, .attention, .pointer]
  · exact hs.congr (ownerOf_touches r p s) (others .entries · (by simp)) (others .attention · (by simp))
      (others .pointer · (by simp))
  · cases r
    case start => exact identities_startCycle hs
    case stop => exact identities_stopCycle hs
    case admitStation => exact CommandStable.forAddress (P := State.IdentityLaw) identities_admitEntry p hs
    case bar =>
      exact CommandStable.forAddress (P := State.IdentityLaw) (act := fun a u => accept (barEntry a u)) identities_barEntry p hs
    case unbar => exact CommandStable.forAddress (P := State.IdentityLaw) identities_unbarEntry p hs
    case provision =>
      exact CommandStable.forAddress (P := State.IdentityLaw)
        (act := fun a t => accept (setExpected a (some (identityOf (p.drop 1))) t)) (fun a u hu => hu.refine rfl rfl) p hs
    case forget =>
      exact CommandStable.forAddress (P := State.IdentityLaw)
        (act := fun a t => accept (setExpected a none t)) (fun a u hu => hu.refine rfl rfl) p hs
    all_goals exact absurd (by simp [ownerPieces]) others

/-! ## Every command -/

theorem identities_laws : LawStable State.IdentityLaw where
  frame _ _ h hs := hs.congr h (by simp [slackPieces]) (by simp [slackPieces]) (by simp [slackPieces])
  owner r p s hs _ := identities_owner r p s hs
  resets _ _ _ := reset_identityLaw
  holds s hs := hs.congr (holdInReset_touches s)
  safe s hs := hs.congr (forceOutputsSafe_touches s)
  crosses s hs := hs.congr (crossBoundary_touches s) (by simp [boundaryPieces]) (by simp [boundaryPieces])
    (by simp [boundaryPieces])
  closes s hs _ _ := identities_endStopping hs
  marks s hs _ _ := hs.congr (startMark_touches s)
  slots x s hs _ _ := hs.congr (startSlot_touches x s)
  gap :=
    { drop := fun i k s hs => by
        have same := dropTrigger_touches s i k .absent
        exact ⟨hs.1.congr same, (same.same .mode (by simp)).trans hs.2.1, (same.same .record (by simp)).trans hs.2.2⟩
      trigger := fun i _ k s hs _ _ _ => hs.1.congr (startTrigger_touches i k s)
      send := fun _ m s hs _ => hs.1.congr (startSend_touches m s)
      fetch := fun _ _ _ hs ha _ => identities_startFetch ha hs.1
      roll := fun _ _ hs ha => identities_startRoll ha hs.1 }
  ends o s _ hs _ _ := identities_endRecord o s hs
  phase p s r hs _ _ := hs.congr (setRecord_touches s _)
  spoils s r hs _ := hs.congr (setRecord_touches s _)
  sends s r hs _ := hs
  rests v n s hs := hs.congr (returnToIdle_touches v n s)
  pins i v s hs := hs.congr (setPin_touches i v s)
  takes i s hs := hs.congr (takeLasting_touches i s)
  sees i v s hs := hs.congr (seePin_touches i v s)
  filters i l v s hs _ := hs.congr (changeFiltered_touches i l v s)

/-- Settles O55: the law of identities goes through every command. -/
theorem everyStepKeepsIdentities : Obligations.EveryStepKeepsIdentities := fun _ _ hs h =>
  step_keeps (P := State.IdentityLaw) (fun _ _ hs => hs) (fun _ hs => hs) identities_laws.command hs h

end Sys2Proof.Machine
end

section
/-! PROOFS. The laws of CONFIG (R26, R77) and of point quality (R70, R71), which every step keeps together. -/

-- One theorem after another: theorems checked side by side would each hold a thread.
set_option Elab.async false

namespace Sys2Proof.Machine

variable {s t u : State}

/-! ## The quality of one point -/

/-- R70, R71: what the law asks of one point, in a mode and with its publisher ACTIVE or not. -/
def Point.Lawful (m : Mode) (active : Bool) (p : Point) : Prop :=
  p.key.valid = true ∧ (p.quality = .offline ↔ m ≠ .run) ∧ (m = .run → (p.quality = .noSource ↔ active = false)) ∧
    (p.quality = .good → p.age ≤ p.staleLimit)

theorem State.qualityLaw_iff : s.QualityLaw ↔
    ∀ p ∈ s.points, p.Lawful s.sched.mode (s.stationActive p.key.address) := Iff.rfl

/-- Outside RUN every lawful point is OFFLINE, whatever its publisher. -/
theorem Point.lawful_offline {m : Mode} {b : Bool} {p : Point} (valid : p.key.valid = true) (hm : m ≠ .run)
    (hq : p.quality = .offline) : p.Lawful m b :=
  ⟨valid, ⟨fun _ => hm, fun _ => hq⟩, fun h => absurd h hm, fun h => by rw [hq] at h; cases h⟩

/-- In RUN the quality agrees with the publisher, and GOOD with the age. -/
theorem Point.lawful_run {m : Mode} {b : Bool} {p : Point} (valid : p.key.valid = true) (hm : m = .run)
    (online : p.quality ≠ .offline) (source : p.quality = .noSource ↔ b = false)
    (fresh : p.quality = .good → p.age ≤ p.staleLimit) : p.Lawful m b :=
  ⟨valid, ⟨fun h => absurd h online, fun h => absurd hm h⟩, fun _ => source, fresh⟩

theorem Point.Lawful.publisher {m : Mode} {b c : Bool} {p : Point} (h : p.Lawful m b) (hm : m ≠ .run) : p.Lawful m c := by
  obtain ⟨valid, offline, -, fresh⟩ := h
  exact ⟨valid, offline, fun run => absurd run hm, fresh⟩

/-! ## The points after a happening -/

theorem stationActive_of_touches {ps : List Piece} (h : Touches ps s t) (he : Piece.entries ∉ ps := by simp) (a : Nat) :
    t.stationActive a = s.stationActive a := by
  unfold State.stationActive
  rw [State.entry_of_touches h he]

theorem mem_replacePoint {q p : Point} {ps : List Point} (h : q ∈ replacePoint ps p) : q = p ∨ (q ∈ ps ∧ q.key ≠ p.key) := by
  obtain ⟨x, hx, rfl⟩ := List.mem_map.1 h
  split
  · exact .inl rfl
  · rename_i other
    exact .inr ⟨hx, other⟩

/-- R82: after a happening at some points a record is one that it made, or one of another key. -/
theorem mem_changePoints {f : Point → Point} (keys : ∀ p, (f p).key = p.key) {ps : List Point} {q : Point}
    (h : q ∈ (changePoints f ps s).points) : (∃ p ∈ ps, q = f p) ∨ (q ∈ s.points ∧ ∀ p ∈ ps, q.key ≠ p.key) := by
  induction ps generalizing s with
  | nil => exact .inr ⟨h, fun _ hp => absurd hp List.not_mem_nil⟩
  | cons p ps ih =>
    rcases ih (s := changePoint f p s) h with ⟨x, hx, made⟩ | ⟨held, other⟩
    · exact .inl ⟨x, List.mem_cons_of_mem p hx, made⟩
    · rw [(changePoint_cacheOnly f p s).2] at held
      rcases mem_replacePoint held with made | ⟨held, apart⟩
      · exact .inl ⟨p, List.mem_cons_self, made⟩
      · refine .inr ⟨held, fun x hx => ?_⟩
        rcases List.mem_cons.1 hx with rfl | hx
        · exact keys x ▸ apart
        · exact other x hx

theorem State.QualityLaw.congr (hs : s.QualityLaw) {ps : List Piece} (h : Touches ps s t) (hp : Piece.points ∉ ps := by simp)
    (hm : Piece.mode ∉ ps := by simp) (he : Piece.entries ∉ ps := by simp) : t.QualityLaw := by
  have points : t.points = s.points := h.same _ hp
  have mode : t.sched.mode = s.sched.mode := h.same _ hm
  simp only [State.QualityLaw, State.stationActive, State.entry_of_touches h he, points, mode]
  exact hs

/-- The points are those of a happening, and the law holds of each that it made and of each that it left. -/
theorem State.QualityLaw.changed {f : Point → Point} (keys : ∀ p, (f p).key = p.key) {ps : List Point} {m : Mode}
    (points : t.points = (changePoints f ps s).points) (mode : t.sched.mode = m)
    (made : ∀ p ∈ ps, (f p).Lawful m (t.stationActive p.key.address))
    (left : ∀ q ∈ s.points, (∀ p ∈ ps, q.key ≠ p.key) → q.Lawful m (t.stationActive q.key.address)) : t.QualityLaw := by
  rw [State.qualityLaw_iff, points, mode]
  intro q hq
  rcases mem_changePoints keys hq with ⟨p, hp, rfl⟩ | ⟨held, other⟩
  · rw [keys]
    exact made p hp
  · exact left q held other

/-- A happening at points that stand in the cache. -/
theorem State.QualityLaw.happening (hs : s.QualityLaw) {f : Point → Point} (keys : ∀ p, (f p).key = p.key) {ps : List Point}
    (made : ∀ p ∈ ps, (f p).Lawful s.sched.mode (s.stationActive p.key.address)) : (changePoints f ps s).QualityLaw := by
  have touched := changePoints_touches s f ps
  have active := stationActive_of_touches touched
  refine .changed keys rfl (touched.same .mode (by simp)) (fun p hp => ?_) fun q hq _ => ?_
  · rw [active]
    exact made p hp
  · rw [active]
    exact hs q hq

/-! ## Entries and points together -/

theorem stationActive_setEntry (s : State) (a b : Nat) (e : RosterEntry) :
    (s.setEntry a e).stationActive b = if b = a ∧ 1 ≤ a ∧ a ≤ 62 then e.state == .active else s.stationActive b := by
  unfold State.stationActive
  rw [entry_setEntry]
  split <;> rfl

theorem State.setEntry_mode (s : State) (a : Nat) (e : RosterEntry) : (s.setEntry a e).sched.mode = s.sched.mode :=
  (setEntry_touches s a e).same .mode (by simp)

/-- An entry changes, but not whether its station is ACTIVE. -/
theorem State.QualityLaw.setEntry (hs : s.QualityLaw) {a : Nat} {e : RosterEntry}
    (same : (e.state == .active) = s.stationActive a) : (s.setEntry a e).QualityLaw := by
  intro p hp
  have held : p ∈ s.points := by rwa [(setEntry_touches s a e).same .points (by simp)] at hp
  have active : (s.setEntry a e).stationActive p.key.address = s.stationActive p.key.address := by
    rw [stationActive_setEntry]
    split
    · rename_i at_
      rw [at_.1, same]
    · rfl
  change p.Lawful _ _
  rw [active, State.setEntry_mode]
  exact hs p held

/-- Where the mode is not RUN the publishers do not count. -/
theorem State.QualityLaw.stopped (hs : s.QualityLaw) {a : Nat} (e : RosterEntry) (hm : s.sched.mode ≠ .run) :
    (s.setEntry a e).QualityLaw := by
  intro p hp
  have held : p ∈ s.points := by rwa [(setEntry_touches s a e).same .points (by simp)] at hp
  change p.Lawful _ _
  rw [State.setEntry_mode]
  exact Point.Lawful.publisher (hs p held) hm

theorem mem_pointsOf {a : Nat} {p : Point} : p ∈ s.pointsOf a ↔ p ∈ s.points ∧ p.key.address = a := by
  simp [State.pointsOf]

/-- R78: a point of a station that becomes ACTIVE goes from NO_SOURCE to NEVER. -/
theorem qualities_publisherActive {a : Nat} {e : RosterEntry} (hs : s.QualityLaw) (idle : s.stationActive a = false)
    (he : e.state = .active) : (publisherActive a (s.setEntry a e)).QualityLaw := by
  have held : (s.setEntry a e).points = s.points := (setEntry_touches s a e).same .points (by simp)
  unfold publisherActive
  rw [State.setEntry_mode]
  split
  · rename_i run
    have touched := changePoints_touches (s.setEntry a e)
      (fun p => if p.quality = .noSource then p.withQuality .never else p) ((s.setEntry a e).pointsOf a)
    have active := stationActive_of_touches touched
    refine .changed (fun p => by split <;> rfl) rfl
      ((touched.same .mode (by simp)).trans (s.setEntry_mode a e)) (fun p hp => ?_) fun q hq other => ?_
    · obtain ⟨hp, rfl⟩ := mem_pointsOf.1 hp
      obtain ⟨valid, -, source, -⟩ := hs p (held ▸ hp)
      rw [if_pos ((source run).2 idle), active, stationActive_setEntry]
      have range := (Key.valid_iff _).1 valid
      rw [if_pos ⟨rfl, range.1, range.2.1⟩, he]
      exact Point.lawful_run valid run (by simp [Point.withQuality]) (by simp [Point.withQuality]) (by simp [Point.withQuality])
    · rw [active, stationActive_setEntry, if_neg]
      · exact hs q (held ▸ hq)
      · rintro ⟨rfl, -⟩
        exact other q (mem_pointsOf.2 ⟨hq, rfl⟩) rfl
  · rename_i stopped
    exact hs.stopped e stopped

/-- R78: every point of a station that leaves ACTIVE becomes NO_SOURCE. -/
theorem qualities_publisherGone {a : Nat} (idle : s.stationActive a = false)
    (hs : ∀ p ∈ s.points, p.key.address ≠ a → p.Lawful s.sched.mode (s.stationActive p.key.address))
    (own : ∀ p ∈ s.points, p.key.address = a → ∃ b, p.Lawful s.sched.mode b) : (publisherGone a s).QualityLaw := by
  have keys : ∀ p : Point, (if p.quality = .offline then p else p.withQuality .noSource).key = p.key := fun p => by split <;> rfl
  unfold publisherGone
  split
  · rename_i run
    have touched := changePoints_touches s (fun p => if p.quality = .offline then p else p.withQuality .noSource) (s.pointsOf a)
    have active := stationActive_of_touches touched
    refine .changed keys rfl (touched.same .mode (by simp)) (fun p hp => ?_) fun q hq other => ?_
    · obtain ⟨held, rfl⟩ := mem_pointsOf.1 hp
      obtain ⟨b, valid, offline, -⟩ := own p held rfl
      rw [if_neg (fun h => offline.1 h run), active, idle]
      exact Point.lawful_run valid run (by simp [Point.withQuality]) (by simp [Point.withQuality]) (by simp [Point.withQuality])
    · rw [active]
      exact hs q hq fun h => other q (mem_pointsOf.2 ⟨hq, h⟩) rfl
  · rename_i stopped
    intro p hp
    by_cases h : p.key.address = a
    · obtain ⟨b, lawful⟩ := own p hp h
      exact lawful.publisher stopped
    · exact hs p hp h

/-! ## The outcome of a record (R35) -/

theorem qualities_takePolarity (a : Nat) (b : Bool) (hs : s.QualityLaw) : (takePolarity a b s).QualityLaw := by
  have turned : (s.setEntry a { s.entry a with inverted := b }).QualityLaw := hs.setEntry rfl
  unfold takePolarity
  dsimp only
  split
  · exact hs
  · exact turned.congr (raiseReport_touches _ _ _)

theorem qualities_becomeActive {a : Nat} (i : Identity) (rejoin admitted : Bool) (hs : s.QualityLaw)
    (idle : s.stationActive a = false) : (becomeActive a i rejoin admitted s).QualityLaw :=
  State.QualityLaw.congr (qualities_publisherActive hs idle rfl) (raiseReport_touches _ _ _)

theorem qualities_becomeHeld {a : Nat} (i : Identity) (r : HeldReason) (hs : s.QualityLaw) (idle : s.stationActive a = false) :
    (becomeHeld a i r s).QualityLaw := by
  have held : (s.setEntry a { s.entry a with state := .held, seen := some i }).QualityLaw := hs.setEntry idle.symm
  exact held.congr (raiseReport_touches _ _ _)

theorem qualities_takeIdentity {a : Nat} (i : Identity) (hs : s.QualityLaw) (idle : s.stationActive a = false) :
    (takeIdentity a i s).QualityLaw := by
  unfold takeIdentity
  split
  · exact hs.congr (raiseReport_touches _ _ _)
  · split
    · exact qualities_becomeActive i _ _ hs idle
    · split
      · split
        · exact qualities_becomeActive i _ _ hs idle
        · exact qualities_becomeHeld i _ hs idle
      · split
        · exact qualities_becomeActive i _ _ hs idle
        · exact qualities_becomeHeld i _ hs idle

theorem qualities_countClash (a : Nat) (hs : s.QualityLaw) : (countClash a s).QualityLaw := by
  have counted : (s.setEntry a { s.entry a with clash := min 255 ((s.entry a).clash + 1) }).QualityLaw := hs.setEntry rfl
  unfold countClash
  dsimp only
  split
  · exact counted.congr (raiseReport_touches _ _ _)
  · exact counted

/-- R59: what a loss does before the points are told. -/
theorem lossBeforePoints_touches (a : Nat) (s : State) :
    Touches [.waiting, .counts, .attention, .reports, .outbound] s (loseMessages a (removeAttention a (skipWaitingSlots a s))) :=
  ((skipWaitingSlots_touches s a).mono.trans (removeAttention_touches _ a).mono).trans (loseMessages_touches _ a).mono

/-- R59: the points of a lost station become NO_SOURCE. -/
theorem qualities_lossConsequences {a : Nat} (idle : s.stationActive a = false)
    (hs : ∀ p ∈ s.points, p.key.address ≠ a → p.Lawful s.sched.mode (s.stationActive p.key.address))
    (own : ∀ p ∈ s.points, p.key.address = a → ∃ b, p.Lawful s.sched.mode b) : (lossConsequences a s).QualityLaw := by
  have touched := lossBeforePoints_touches a s
  unfold lossConsequences
  generalize loseMessages a (removeAttention a (skipWaitingSlots a s)) = u at touched ⊢
  have points : u.points = s.points := touched.same .points (by simp)
  have mode : u.sched.mode = s.sched.mode := touched.same .mode (by simp)
  have active := stationActive_of_touches touched
  refine State.QualityLaw.congr (qualities_publisherGone (by rw [active, idle]) (fun p hp other => ?_) fun p hp here => ?_)
    (dropLostTriggers_touches _ a)
  · rw [mode, active]
    exact hs p (points ▸ hp) other
  · rw [mode]
    exact own p (points ▸ hp) here

theorem qualities_loseStation (a : Nat) {x : RosterState} (c : LostCause) (hs : s.QualityLaw) (hx : x ≠ .active) :
    (loseStation a x c s).QualityLaw := by
  have entry := setEntry_touches s a { s.entry a with state := x }
  have report := raiseReport_touches (s.setEntry a { s.entry a with state := x }) .deviceLost (deviceLostBody a c (s.entry a))
  have touched := (entry.mono (qs := [.entries, .reports, .conds])).trans report.mono
  have active : ∀ b, (raiseReport .deviceLost (deviceLostBody a c (s.entry a))
      (s.setEntry a { s.entry a with state := x })).stationActive b =
        if b = a ∧ 1 ≤ a ∧ a ≤ 62 then false else s.stationActive b := fun b => by
    rw [stationActive_of_touches report, stationActive_setEntry]
    cases x with
    | active => exact absurd rfl hx
    | vacant => rfl
    | held => rfl
    | lost => rfl
    | barred => rfl
  unfold loseStation
  dsimp only
  generalize raiseReport .deviceLost (deviceLostBody a c (s.entry a)) (s.setEntry a { s.entry a with state := x }) = u
    at touched active ⊢
  have points : u.points = s.points := touched.same .points (by simp)
  have mode : u.sched.mode = s.sched.mode := touched.same .mode (by simp)
  refine qualities_lossConsequences ?_ (fun p hp other => ?_) fun p hp _ => ?_
  · rw [active]
    split
    · rfl
    · rename_i outside
      by_contra on
      exact outside ⟨rfl, entry_occupied_range (.inl (by simpa [State.stationActive] using on))⟩
  · rw [mode, active, if_neg fun h => other h.1]
    exact hs p (points ▸ hp)
  · rw [mode]
    exact ⟨_, hs p (points ▸ hp)⟩

theorem qualities_workOutcome (a : Nat) (o : TxnOutcome) (hs : s.QualityLaw) : (workOutcome a o s).QualityLaw := by
  have counts : (if s.stationActive a then countMiss a s else s).QualityLaw := by
    split
    · have entry : (s.setEntry a { s.entry a with miss := (s.entry a).miss + 1 }).QualityLaw := hs.setEntry rfl
      unfold countMiss
      dsimp only
      split
      · exact qualities_loseStation a _ entry (by decide)
      · exact entry
    · exact hs
  cases o with
  | answered x flag inverted =>
    refine qualities_takePolarity a inverted ?_
    split
    · exact hs.setEntry rfl
    · exact hs
  | miss => exact counts
  | garbled => exact counts
  | wrong => exact counts
  | sent => exact hs
  | collision => exact hs
  | echoLost => exact hs
  | abandoned => exact hs

theorem qualities_rollOutcome (a : Nat) (o : TxnOutcome) (hs : s.QualityLaw) : (rollOutcome a o s).QualityLaw := by
  unfold rollOutcome
  split
  · rename_i open_
    have idle : s.stationActive a = false := by
      unfold State.stationActive
      rcases open_ with h | h <;> rw [h] <;> rfl
    split
    · exact qualities_takePolarity a _ (qualities_takeIdentity _ hs idle)
    · exact qualities_countClash a hs
    · exact hs
  · split
    · exact qualities_takePolarity a _ hs
    · exact hs

theorem qualities_rosterStep (r : Record) (o : TxnOutcome) (hs : s.QualityLaw) : (rosterStep r o s).QualityLaw := by
  unfold rosterStep
  split
  · exact hs
  · exact qualities_rollOutcome _ o hs
  · exact qualities_workOutcome _ o hs

/-- R79-R81: a PUB of an ACTIVE station makes its point GOOD, or BAD_LENGTH, in RUN. -/
theorem qualities_takePub (a number : Nat) (status : Byte) (value : List Byte) (hs : s.QualityLaw) :
    (takePub a number status value s).QualityLaw := by
  unfold takePub
  split
  · exact hs
  · rename_i p found
    obtain ⟨key, held⟩ := point_some found
    obtain ⟨valid, offline, source, fresh⟩ := hs p held
    have one : ∀ f : Point → Point, (∀ q, (f q).key = q.key) → (f p).Lawful s.sched.mode (s.stationActive p.key.address) →
        (changePoint f p s).QualityLaw := fun f keys lawful =>
      hs.happening (ps := [p]) keys fun q hq => by rwa [List.mem_singleton.1 hq]
    split
    · exact hs
    · rename_i active
      have active : s.stationActive p.key.address = true := by simpa [key] using active
      split
      · refine one _ (fun _ => rfl) ?_
        by_cases run : s.sched.mode = .run
        · exact Point.lawful_run valid run (by simp [storePub, run]) (by simp [storePub, run, active]) (by simp [storePub])
        · exact Point.lawful_offline valid run (by simpa [storePub, run] using offline.2 run)
      · split
        · rename_i run
          exact one (Point.withQuality .badLength) (fun _ => rfl)
            (Point.lawful_run valid run (by simp [Point.withQuality]) (by simp [Point.withQuality, active])
              (by simp [Point.withQuality]))
        · exact hs

theorem qualities_cacheStep (r : Record) (o : TxnOutcome) (hs : s.QualityLaw) : (cacheStep r o s).QualityLaw := by
  unfold cacheStep
  split
  · exact qualities_takePub _ _ _ _ hs
  · exact hs

theorem qualities_endRecord (o : TxnOutcome) (s : State) (hs : s.QualityLaw) : (endRecord o s).QualityLaw := by
  unfold endRecord
  split
  · exact hs
  · rename_i r _
    extract_lets owned src cleared delivered
    have phase : (s.setTxn { s.txn with record := some { r with phase := .ended } }).QualityLaw := hs
    have ended : cleared.QualityLaw := phase.congr (clearOnLine_touches _ r)
    have told := State.QualityLaw.congr (qualities_cacheStep r o (qualities_rosterStep r o ended)) (attentionStep_touches _ r o)
    exact State.QualityLaw.congr (told.congr (ownerStep_touches _ r o owned)) (setRecord_touches delivered none)

/-! ## The cycle: START, STOP, the boundary and the end of STOPPING -/

theorem State.ConfigLaw.congr (hs : s.ConfigLaw) {ps : List Piece} (h : Touches ps s t) (hm : Piece.mode ∉ ps := by simp)
    (hr : Piece.record ∉ ps := by simp) (he : Piece.entries ∉ ps := by simp) (ht : Piece.transmitter ∉ ps := by simp) :
    t.ConfigLaw := by
  have mode : t.sched.mode = s.sched.mode := h.same _ hm
  have record : t.txn.record = s.txn.record := h.same _ hr
  have transmitter : t.seg.transmitter = s.seg.transmitter := h.same _ ht
  simp only [State.ConfigLaw, mode, record, transmitter, State.entry_of_touches h he]
  exact hs

/-- R26: with no record in flight the transmitter is in IDLE. -/
theorem State.ConfigLaw.idle (hs : s.ConfigLaw) (hr : s.txn.record = none) : s.seg.transmitter.busy = false := by
  cases busy : s.seg.transmitter.busy with
  | false => rfl
  | true =>
    obtain ⟨r, _, record, -⟩ := hs.2 busy
    rw [hr] at record
    cases record

/-- R26: a record that is not in SENDING is not under way. -/
theorem State.ConfigLaw.steady (hs : s.ConfigLaw) {r : Record} (hr : s.txn.record = some r) (h : r.Steady s) :
    s.seg.transmitter.busy = false := by
  cases busy : s.seg.transmitter.busy with
  | false => rfl
  | true =>
    obtain ⟨r', since, record, phase⟩ := hs.2 busy
    obtain rfl : r = r' := Option.some.inj (hr.symm.trans record)
    exact busy.symm.trans (h since phase)

/-- R77: a record is in flight outside CONFIG only. -/
theorem State.ConfigLaw.running (hs : s.ConfigLaw) {r : Record} (hr : s.txn.record = some r) : s.sched.mode ≠ .config :=
  fun config => by
    have := (hs.1 config).1
    rw [hr] at this
    cases this

theorem configLaw_of (hm : s.sched.mode ≠ .config) (hb : s.seg.transmitter.busy = false) : s.ConfigLaw :=
  ⟨fun h => absurd h hm, fun h => by rw [hb] at h; cases h⟩

/-- The two laws together. -/
def State.RestLaw (s : State) : Prop := s.ConfigLaw ∧ s.QualityLaw

theorem State.RestLaw.congr (hs : s.RestLaw) {ps : List Piece} (h : Touches ps s t) (hm : Piece.mode ∉ ps := by simp)
    (hr : Piece.record ∉ ps := by simp) (he : Piece.entries ∉ ps := by simp) (ht : Piece.transmitter ∉ ps := by simp)
    (hp : Piece.points ∉ ps := by simp) : t.RestLaw :=
  ⟨hs.1.congr h hm hr he ht, hs.2.congr h hp hm he⟩

/-- R5, R77: START comes in CONFIG, where no station is ACTIVE: every point is NO_SOURCE. -/
theorem rest_startCycle (hm : s.sched.mode = .config) (hs : s.RestLaw) : (startCycle s).RestLaw := by
  obtain ⟨config, quality⟩ := hs
  obtain ⟨record, quiet⟩ := config.1 hm
  have touched := startCycle_touches s
  have idle : ∀ a, (startCycle s).stationActive a = false := fun a => by
    rw [stationActive_of_touches touched (by simp [runPieces]), State.stationActive]
    rcases quiet a with h | h <;> rw [h] <;> rfl
  refine ⟨configLaw_of nofun ?_, .changed (f := Point.withQuality .noSource) (s := s.setRoster { s.roster with probePointer := 1 })
    (ps := s.points) (fun _ => rfl) rfl rfl (fun p hp => ?_) fun q hq other => absurd rfl (other q hq)⟩
  · rw [(touched.same .transmitter (by simp [runPieces]))]
    exact config.idle record
  · rw [idle]
    exact Point.lawful_run (quality p hp).1 rfl nofun (by simp [Point.withQuality]) nofun

/-- R6, R77: after STOP every point is OFFLINE. -/
theorem rest_stopCycle (hs : s.RestLaw) : (stopCycle s).RestLaw := by
  obtain ⟨config, quality⟩ := hs
  have stopped := changePoints_touches (s.setSched { s.sched with mode := .stopping, markWaiting := false, waiting := [] })
    (Point.withQuality .offline) s.points
  have law : (changePoints (Point.withQuality .offline) s.points
      (s.setSched { s.sched with mode := .stopping, markWaiting := false, waiting := [] })).RestLaw := by
    refine ⟨?_, .changed (f := Point.withQuality .offline)
      (s := s.setSched { s.sched with mode := .stopping, markWaiting := false, waiting := [] })
      (ps := s.points) (fun _ => rfl) rfl (stopped.same .mode (by simp)) (fun p hp => ?_) fun q hq other => absurd rfl (other q hq)⟩
    · have sending : (s.setSched { s.sched with mode := .stopping, markWaiting := false, waiting := [] }).ConfigLaw :=
        ⟨nofun, config.2⟩
      exact sending.congr stopped
    · exact Point.lawful_offline (quality p hp).1 nofun rfl
  exact law.congr (evaluateForeign_touches _)

/-- R82: a point that ages beyond its limit is no longer GOOD. -/
theorem Point.Lawful.aged {m : Mode} {b : Bool} {p : Point} (h : p.Lawful m b) : p.aged.Lawful m b := by
  obtain ⟨valid, offline, source, fresh⟩ := h
  unfold Point.aged
  dsimp only
  by_cases stale : p.quality = .good ∧ p.staleLimit < min 65535 (p.age + 1)
  · have run : m = .run := by
      by_contra stopped
      rw [offline.2 stopped] at stale
      cases stale.1
    rw [if_pos stale]
    refine Point.lawful_run valid run nofun ?_ nofun
    rw [← source run, stale.1]
    simp
  · rw [if_neg stale]
    exact ⟨valid, offline, source, fun good => Nat.le_of_not_lt fun late => stale ⟨good, late⟩⟩

theorem rest_crossBoundary (hs : s.RestLaw) : (crossBoundary s).RestLaw := by
  unfold crossBoundary
  extract_lets ended dropped opened aged gap calmed expired reported
  have late : (overrunLate s).RestLaw := hs.congr (overrunLate_touches s)
  have skips : (skipOverruns (overrunLate s)).RestLaw := late.congr (skipOverruns_touches _)
  have mark : dropped.RestLaw := skips.congr (dropMark_touches _)
  have swap : (carryOutSwap dropped).RestLaw := mark.congr (carryOutSwap_touches _)
  have opens : opened.RestLaw := swap.congr (openCycle_touches _)
  have ages : aged.RestLaw := ⟨opens.1.congr (changePoints_touches _ _ _),
    opens.2.happening (f := Point.aged) (fun _ => rfl) fun p hp => Point.Lawful.aged (opens.2 p hp)⟩
  have calms : calmed.RestLaw := ages.congr (setGap_touches _ _)
  have foreign : expired.RestLaw := calms.congr (expireForeignByCycle_touches _)
  have skipped : reported.RestLaw := foreign.congr (reportSkips_touches _ _)
  exact skipped

/-- What each application establishes and every other keeps holds once all are done. -/
theorem overAll_reaches {α : Type} {Q : State → Prop} {f : α → State → State} {x : α} {xs : List α} (hx : x ∈ xs)
    (establishes : ∀ u, Q (f x u)) (keeps : ∀ y u, Q u → Q (f y u)) (s : State) : Q (overAll xs f s) := by
  obtain ⟨before, after, rfl⟩ := List.append_of_mem hx
  rw [overAll, List.foldl_append, List.foldl_cons]
  exact overAll_keeps (f := f) (xs := after) (establishes _) fun y _ u hu => keeps y u hu

/-- R67: after STOPPING every entry is VACANT or BARRED. -/
theorem settleRoster_quiet (a : Nat) (s : State) :
    ((settleRoster s).entry a).state = .vacant ∨ ((settleRoster s).entry a).state = .barred := by
  have after : ∀ e : RosterEntry, e.afterStop.state = .vacant ∨ e.afterStop.state = .barred := fun e => by
    unfold RosterEntry.afterStop
    split <;> (rename_i was; simp [was])
  by_cases range : 1 ≤ a ∧ a ≤ 62
  · refine overAll_reaches (Q := fun u => (u.entry a).state = .vacant ∨ (u.entry a).state = .barred)
      (mem_stationAddresses.2 range) (fun u => ?_) (fun b u hu => ?_) s
    · rw [entry_setEntry, if_pos ⟨rfl, range⟩]
      exact after _
    · rw [entry_setEntry]
      split
      · exact after _
      · exact hu
  · left
    rw [entry_outside (by omega)]
    rfl

theorem rest_endStopping (hm : s.sched.mode = .stopping) (hr : s.txn.record = none) (hs : s.RestLaw) :
    (endStopping s).RestLaw := by
  obtain ⟨config, quality⟩ := hs
  unfold endStopping
  extract_lets sched opened swapped settled unattended aborted untriggered evaluated
  have swap := discardSwap_touches opened
  have roster := settleRoster_touches swapped
  have law : settled.RestLaw := by
    refine ⟨⟨fun _ => ⟨?_, fun a => settleRoster_quiet a swapped⟩, fun busy => ?_⟩, fun p hp => ?_⟩
    · exact ((roster.same .record (by simp)).trans (swap.same .record (by simp))).trans hr
    · have transmitter : settled.seg.transmitter = s.seg.transmitter :=
        (roster.same .transmitter (by simp)).trans (swap.same .transmitter (by simp))
      rw [transmitter, config.idle hr] at busy
      cases busy
    · have points : settled.points = s.points := (roster.same .points (by simp)).trans (swap.same .points (by simp))
      have mode : settled.sched.mode = .config := (roster.same .mode (by simp)).trans (swap.same .mode (by simp))
      obtain ⟨valid, offline, -⟩ := quality p (points ▸ hp)
      rw [mode]
      exact Point.lawful_offline valid nofun (offline.2 (by rw [hm]; nofun))
  have attention : unattended.RestLaw := law.congr (setAttention_touches settled [])
  have messages : aborted.RestLaw := attention.congr (abortMessages_touches _)
  have lines : untriggered.RestLaw := messages.congr (clearTriggers_touches _)
  have foreign : evaluated.RestLaw := lines.congr (evaluateForeign_touches _)
  exact foreign.congr (raiseReport_touches _ _ _)

/-! ## The requests -/

/-- An entry is replaced by one that CONFIG allows wherever it is allowed now. -/
theorem State.ConfigLaw.setEntry (hs : s.ConfigLaw) {a : Nat} {e : RosterEntry}
    (h : s.sched.mode = .config → e.state = .vacant ∨ e.state = .barred) : (s.setEntry a e).ConfigLaw := by
  have touched := setEntry_touches s a e
  have mode : (s.setEntry a e).sched.mode = s.sched.mode := touched.same .mode (by simp)
  have record : (s.setEntry a e).txn.record = s.txn.record := touched.same .record (by simp)
  have transmitter : (s.setEntry a e).seg.transmitter = s.seg.transmitter := touched.same .transmitter (by simp)
  obtain ⟨quiet, sending⟩ := hs
  simp only [State.ConfigLaw, mode, record, transmitter]
  refine ⟨fun config => ⟨(quiet config).1, fun b => ?_⟩, sending⟩
  rw [entry_setEntry]
  split
  · exact h config
  · exact (quiet config).2 b

/-- Outside CONFIG the entries are free. -/
theorem State.ConfigLaw.roster (hs : s.ConfigLaw) {ps : List Piece} (h : Touches ps s t) (run : s.sched.mode ≠ .config)
    (hm : Piece.mode ∉ ps := by simp) (hr : Piece.record ∉ ps := by simp) (ht : Piece.transmitter ∉ ps := by simp) :
    t.ConfigLaw := by
  have mode : t.sched.mode = s.sched.mode := h.same _ hm
  have record : t.txn.record = s.txn.record := h.same _ hr
  have transmitter : t.seg.transmitter = s.seg.transmitter := h.same _ ht
  simp only [State.ConfigLaw, mode, record, transmitter]
  exact ⟨fun config => absurd config run, hs.2⟩

/-- R77: a station that is neither VACANT nor BARRED is seen outside CONFIG only. -/
theorem State.ConfigLaw.mode_of_entry (hs : s.ConfigLaw) {a : Nat} (vacant : (s.entry a).state ≠ .vacant)
    (barred : (s.entry a).state ≠ .barred) : s.sched.mode ≠ .config := fun config =>
  ((hs.1 config).2 a).elim vacant barred

theorem rest_admitEntry (a : Nat) (s : State) (hs : s.RestLaw) : (admitEntry a s).1.RestLaw := by
  unfold admitEntry
  split
  · rename_i i held seen
    obtain ⟨config, quality⟩ := hs
    have run := config.mode_of_entry (a := a) (by rw [held]; nofun) (by rw [held]; nofun)
    have touched := (setEntry_touches s a { s.entry a with expected := some i }).mono.trans
      (becomeActive_touches (s.setEntry a { s.entry a with expected := some i }) a i false true)
    have expected : (s.setEntry a { s.entry a with expected := some i }).QualityLaw := quality.setEntry rfl
    refine ⟨config.roster touched run, qualities_becomeActive i _ _ expected ?_⟩
    rw [stationActive_setEntry, held, State.stationActive, held]
    simp
  · exact hs

theorem rest_barEntry (a : Nat) (s : State) (hs : s.RestLaw) : (barEntry a s).RestLaw := by
  obtain ⟨config, quality⟩ := hs
  unfold barEntry
  split
  · rename_i active
    have active : (s.entry a).state = .active := by simpa [State.stationActive] using active
    exact ⟨config.roster (loseStation_touches s a _ _)
        (config.mode_of_entry (a := a) (by rw [active]; nofun) (by rw [active]; nofun))
        (by simp [outcomePieces, lossPieces]) (by simp [outcomePieces, lossPieces]) (by simp [outcomePieces, lossPieces]),
      qualities_loseStation a _ quality nofun⟩
  · rename_i idle
    exact ⟨config.setEntry fun _ => .inr rfl, quality.setEntry (Bool.eq_false_iff.2 idle).symm⟩

theorem rest_unbarEntry (a : Nat) (s : State) (hs : s.RestLaw) : (unbarEntry a s).1.RestLaw := by
  obtain ⟨config, quality⟩ := hs
  unfold unbarEntry
  split
  · rename_i barred
    have idle : s.stationActive a = false := by rw [State.stationActive, barred]; rfl
    exact ⟨config.setEntry fun _ => .inl rfl, quality.setEntry idle.symm⟩
  · exact ⟨config, quality⟩

theorem rest_setExpected (a : Nat) (i : Option Identity) (s : State) (hs : s.RestLaw) : (setExpected a i s).RestLaw :=
  ⟨hs.1.setEntry fun config => (hs.1.1 config).2 a, hs.2.setEntry rfl⟩

theorem qualities_declare (p : List Byte) (hs : s.QualityLaw) : (ownDeclare p s).1.QualityLaw := by
  unfold ownDeclare
  dsimp only
  split_ifs with range held room
  · exact hs
  · exact hs
  · exact hs
  · intro q hq
    rcases mem_insertPoint.1 hq with rfl | hq
    · have valid : (keyOf p).valid = true := by
        simp only [declareInRange, Bool.not_eq_true', Bool.not_eq_false, Bool.and_eq_true] at range
        exact range.1.1.1
      change Point.Lawful s.sched.mode (s.stationActive (keyOf p).address) (newPoint (keyOf p) (field8 p 2) (field8 p 3)
        (newQuality (keyOf p).address s))
      rw [newQuality_eq]
      by_cases run : s.sched.mode = .run
      · rw [if_neg (not_not.2 run)]
        cases active : s.stationActive (keyOf p).address with
        | true => exact Point.lawful_run valid run nofun (by simp [newPoint]) nofun
        | false => exact Point.lawful_run valid run nofun (by simp [newPoint]) nofun
      · rw [if_pos run]
        exact Point.lawful_offline valid run rfl
    · exact hs q hq

theorem qualities_withdraw (p : List Byte) (hs : s.QualityLaw) : (ownWithdraw p s).1.QualityLaw := by
  unfold ownWithdraw
  dsimp only
  split_ifs
  · exact hs
  · exact hs
  · split
    · exact hs
    · exact fun q hq => hs q (List.mem_filter.1 hq).1

theorem qualities_watch (p : List Byte) (hs : s.QualityLaw) : (ownWatch p s).1.QualityLaw := by
  unfold ownWatch
  split
  · split
    · rename_i q found
      intro x hx
      rcases mem_replacePoint hx with rfl | ⟨held, -⟩
      · exact hs q (point_some found).2
      · exact hs x held
    · exact hs
  · exact hs

theorem rest_owner (r : RequestName) (p : List Byte) (s : State) (hs : s.RestLaw) (mode : modeRefusal r s.sched.mode = none) :
    (ownerOf r p s).1.RestLaw := by
  by_cases others : ∀ x ∈ ownerPieces r, x ∉ [Piece.mode, .record, .entries, .transmitter, .points]
  · exact hs.congr (ownerOf_touches r p s) (others .mode · (by simp)) (others .record · (by simp))
      (others .entries · (by simp)) (others .transmitter · (by simp)) (others .points · (by simp))
  · cases r
    case start =>
      refine rest_startCycle ?_ hs
      cases m : s.sched.mode with
      | config => rfl
      | run => rw [m] at mode; cases mode
      | stopping => rw [m] at mode; cases mode
    case stop => exact rest_stopCycle hs
    case admitStation => exact CommandStable.forAddress (P := State.RestLaw) rest_admitEntry p hs
    case bar => exact CommandStable.forAddress (P := State.RestLaw) (act := fun a u => accept (barEntry a u)) rest_barEntry p hs
    case unbar => exact CommandStable.forAddress (P := State.RestLaw) rest_unbarEntry p hs
    case provision =>
      exact CommandStable.forAddress (P := State.RestLaw)
        (act := fun a t => accept (setExpected a (some (identityOf (p.drop 1))) t)) (fun a => rest_setExpected a _) p hs
    case forget =>
      exact CommandStable.forAddress (P := State.RestLaw) (act := fun a t => accept (setExpected a none t))
        (fun a => rest_setExpected a _) p hs
    case declare => exact ⟨hs.1.congr (ownDeclare_touches p s), qualities_declare p hs.2⟩
    case withdraw => exact ⟨hs.1.congr (ownWithdraw_touches p s), qualities_withdraw p hs.2⟩
    case watch => exact ⟨hs.1.congr (ownWatch_touches p s), qualities_watch p hs.2⟩
    all_goals exact absurd (by simp [ownerPieces]) others

/-! ## Every command -/

/-- R26: a record is handed over in RUN while none is in flight. -/
theorem rest_handOver {ps : List Piece} (hs : s.RestLaw) (run : s.sched.mode = .run) (hr : s.txn.record = none)
    (h : Touches ps s t) (hm : Piece.mode ∉ ps := by simp) (he : Piece.entries ∉ ps := by simp)
    (ht : Piece.transmitter ∉ ps := by simp) (hp : Piece.points ∉ ps := by simp) : t.RestLaw := by
  refine ⟨configLaw_of ?_ ?_, hs.2.congr h hp hm he⟩
  · rw [show t.sched.mode = s.sched.mode from h.same _ hm, run]
    nofun
  · rw [show t.seg.transmitter = s.seg.transmitter from h.same _ ht]
    exact hs.1.idle hr

/-- R26, R35: a record that is not under way changes its phase or ends. -/
theorem rest_record {ps : List Piece} {r : Record} (hs : s.RestLaw) (hr : s.txn.record = some r) (steady : r.Steady s)
    (quality : t.QualityLaw) (h : Touches ps s t) (hm : Piece.mode ∉ ps := by simp) (ht : Piece.transmitter ∉ ps := by simp) :
    t.RestLaw := by
  refine ⟨configLaw_of ?_ ?_, quality⟩
  · rw [show t.sched.mode = s.sched.mode from h.same _ hm]
    exact hs.1.running hr
  · rw [show t.seg.transmitter = s.seg.transmitter from h.same _ ht]
    exact hs.1.steady hr steady

theorem rest_laws : LawStable State.RestLaw where
  frame _ _ h hs := hs.congr h (by simp [slackPieces]) (by simp [slackPieces]) (by simp [slackPieces]) (by simp [slackPieces])
    (by simp [slackPieces])
  owner r p s hs mode := rest_owner r p s hs mode
  resets _ _ _ := ⟨reset_configLaw, fun _ hp => absurd hp List.not_mem_nil⟩
  holds s hs := ⟨⟨fun config => ⟨rfl, (hs.1.1 config).2⟩, nofun⟩, hs.2⟩
  safe s hs := hs.congr (forceOutputsSafe_touches s)
  crosses s hs := rest_crossBoundary hs
  closes s hs hm hr := rest_endStopping hm hr hs
  marks s hs run hr := rest_handOver hs run hr (startMark_touches s)
  slots x s hs run hr := rest_handOver hs run hr (startSlot_touches x s)
  gap :=
    { drop := fun i k s hs => by
        have same := dropTrigger_touches s i k .absent
        exact ⟨hs.1.congr same, (same.same .mode (by simp)).trans hs.2.1, (same.same .record (by simp)).trans hs.2.2⟩
      trigger := fun i _ k s hs _ _ _ => rest_handOver hs.1 hs.2.1 hs.2.2 (startTrigger_touches i k s)
      send := fun _ m s hs _ => rest_handOver hs.1 hs.2.1 hs.2.2 (startSend_touches m s)
      fetch := fun a rest s hs _ _ => rest_handOver hs.1 hs.2.1 hs.2.2 (startFetch_touches a rest s)
      roll := fun a s hs _ => rest_handOver hs.1 hs.2.1 hs.2.2 (startRoll_touches a s) }
  ends o s r hs hr steady := rest_record hs hr steady (qualities_endRecord o s hs.2) (endRecord_touches s o)
    (by simp [outcomePieces, lossPieces]) (by simp [outcomePieces, lossPieces])
  phase p s r hs hr steady := rest_record hs hr steady (hs.2.congr (setRecord_touches s _)) (setRecord_touches s _)
  spoils s r hs hr := by
    refine ⟨⟨fun config => absurd config (hs.1.running hr), fun busy => ?_⟩, hs.2⟩
    obtain ⟨r', since, record, phase⟩ := hs.1.2 busy
    obtain rfl : r = r' := Option.some.inj (hr.symm.trans record)
    exact ⟨_, since, rfl, phase⟩
  sends s r hs hr := ⟨⟨fun config => absurd config (hs.1.running hr), fun _ => ⟨_, s.now, rfl, rfl⟩⟩, hs.2⟩
  rests v n s hs := ⟨⟨hs.1.1, nofun⟩, hs.2⟩
  pins i v s hs := hs.congr (setPin_touches i v s)
  takes i s hs := hs.congr (takeLasting_touches i s)
  sees i v s hs := hs.congr (seePin_touches i v s)
  filters i l v s hs _ := hs.congr (changeFiltered_touches i l v s)

/-- Settles O54: an entry and the points of its station change together, and a record is in flight only outside CONFIG. -/
theorem everyStepKeepsQualities : Obligations.EveryStepKeepsQualities := fun _ _ config quality h =>
  step_keeps (P := State.RestLaw) (fun _ _ hs => hs) (fun _ hs => hs) rest_laws.command ⟨config, quality⟩ h

end Sys2Proof.Machine
end

section
/-! PROOFS. The outbound queue (R103) and the record in flight (R27, R107, R149). -/

-- One theorem after another: theorems checked side by side would each hold a thread.
set_option Elab.async false

namespace Sys2Proof.Machine

variable {s t u : State}

/-! ## The outbound queue (R103) -/

theorem State.OutboundLaw.congr (hs : s.OutboundLaw) {ps : List Piece} (h : Touches ps s t)
    (ho : Piece.outbound ∉ ps := by simp) : t.OutboundLaw := by
  have outbound : t.outbound = s.outbound := h.same _ ho
  rw [State.OutboundLaw, outbound]
  exact hs

/-- Messages leave. -/
theorem State.OutboundLaw.fewer (hs : s.OutboundLaw) (h : t.outbound.Sublist s.outbound) : t.OutboundLaw := by
  obtain ⟨few, distinct, one⟩ := hs
  exact ⟨h.length_le.trans few, distinct.sublist (h.map _), ((h.filter _).length_le).trans one⟩

/-- Messages change, but none becomes the one in flight. -/
theorem State.OutboundLaw.changeMessage (hs : s.OutboundLaw) {x : Byte} {f : Message → Message}
    (tag : ∀ m ∈ s.outbound, m.tag = x → (f m).tag = m.tag)
    (flight : ∀ m ∈ s.outbound, m.tag = x → (f m).state = .inFlight → m.state = .inFlight) : (changeMessage x f s).OutboundLaw := by
  obtain ⟨few, distinct, one⟩ := hs
  have tags : ((Machine.changeMessage x f s).outbound.map (·.tag)) = s.outbound.map (·.tag) := by
    rw [Machine.changeMessage, State.setOutbound_outbound, List.map_map]
    refine List.map_congr_left fun m hm => ?_
    dsimp only [Function.comp]
    split
    · rename_i h
      exact tag m hm h
    · rfl
  refine ⟨by simpa [Machine.changeMessage] using few, tags ▸ distinct, le_trans ?_ one⟩
  rw [Machine.changeMessage, State.setOutbound_outbound, ← List.countP_eq_length_filter, ← List.countP_eq_length_filter,
    List.countP_map]
  refine List.countP_mono_left fun m hm h => ?_
  simp only [Function.comp] at h
  split at h
  · rename_i same
    exact beq_iff_eq.2 (flight m hm same (beq_iff_eq.1 h))
  · exact h

/-- No two messages with one tag: a message of a tag is the one held. -/
theorem State.OutboundLaw.eq_of_tag (hs : s.OutboundLaw) {m x : Message} (hm : m ∈ s.outbound) (hx : x ∈ s.outbound)
    (h : x.tag = m.tag) : x = m := List.inj_on_of_nodup_map hs.2.1 hx hm h

theorem outbound_settle (m : Message) (o : MessageOutcome) (extra : List Byte) (hs : s.OutboundLaw) :
    (settleMessage m o extra s).OutboundLaw := by
  refine hs.fewer ?_
  rw [settleMessage_eq]
  exact List.eraseP_sublist

theorem outbound_loseMessages (a : Nat) (s : State) (hs : s.OutboundLaw) : (loseMessages a s).OutboundLaw :=
  loseMessages_keeps (fun _ o extra _ hu _ => outbound_settle _ o extra hu)
    (fun _ _ hu => hu.changeMessage (fun _ _ _ => rfl) fun _ _ _ h => h) a hs

/-- R107: the message with the tag is put back with one attempt more or less; it stays the one in flight. -/
theorem outbound_attemptFailed {m : Message} (fault : Bool) (hm : m ∈ s.outbound) (hs : s.OutboundLaw) :
    (attemptFailed m fault s).OutboundLaw := by
  unfold attemptFailed
  dsimp only
  split
  · exact outbound_settle _ _ _ hs
  · split
    · exact outbound_settle _ _ _ hs
    · split
      · exact outbound_settle _ _ _ hs
      · refine hs.changeMessage (fun x _ tag => ?_) fun x hx tag h => ?_
        · rw [tag]
          split <;> rfl
        · rw [hs.eq_of_tag hm hx tag]
          revert h
          split <;> exact id

theorem outbound_outboundOutcome (x : Byte) (o : TxnOutcome) (hs : s.OutboundLaw) : (outboundOutcome x o s).OutboundLaw := by
  unfold outboundOutcome
  split
  · exact hs
  · rename_i m hm
    have held := (message_some hm).2
    split
    · exact outbound_settle _ _ _ hs
    · exact outbound_attemptFailed _ held hs
    · exact outbound_attemptFailed _ held hs
    · exact outbound_attemptFailed _ held hs
    · exact outbound_attemptFailed _ held hs
    · exact outbound_attemptFailed _ held hs
    · exact outbound_attemptFailed _ held hs
    · exact hs

theorem outbound_reports : ReportStable State.OutboundLaw :=
  .of_frame (fun k body s hs => hs.congr (raiseReport_touches s k body)) fun _ _ h hs => hs.congr h

theorem outbound_endRecord (o : TxnOutcome) (s : State) (hs : s.OutboundLaw) : (endRecord o s).OutboundLaw := by
  unfold endRecord
  split
  · exact hs
  · rename_i r hr
    extract_lets owned src cleared delivered
    have phase : (s.setTxn { s.txn with record := some { r with phase := .ended } }).OutboundLaw := hs
    have marked : cleared.OutboundLaw := by
      unfold cleared clearOnLine
      split
      · exact phase.changeMessage (fun _ _ _ => rfl) fun _ _ _ h => h
      · exact phase.congr (changeInput_touches _ _ _)
      · exact phase
    have told := outbound_reports.deliver outbound_loseMessages r o marked
    refine State.OutboundLaw.congr ?_ (setRecord_touches delivered none)
    unfold delivered ownerStep
    split
    · exact told
    · exact told.congr (slotOutcome_touches _ _ o)
    · exact told.congr (triggerOutcome_touches _ _ owned)
    · exact outbound_outboundOutcome _ o told
    · exact told.congr (fetchOutcome_touches _ _ o)
    · exact told

/-- R95, R103: the message sent is the one in flight, or none was. -/
theorem outbound_attempted {c : MessageClass} {m : Message} (hm : offeredMessage c s = some m) (hs : s.OutboundLaw) :
    (changeMessage m.tag Message.attempted s).OutboundLaw := by
  obtain ⟨held, -, ⟨flight, -⟩ | none⟩ := offeredMessage_some hm
  · refine hs.changeMessage (fun _ _ _ => rfl) fun x hx tag _ => ?_
    rw [hs.eq_of_tag held hx tag]
    exact flight
  · obtain ⟨few, distinct, -⟩ := hs
    have tags : (changeMessage m.tag Message.attempted s).outbound.map (·.tag) = s.outbound.map (·.tag) :=
      changeMessage_tags _ _ _ fun _ => rfl
    refine ⟨by simpa [changeMessage] using few, tags ▸ distinct, ?_⟩
    have one : s.outbound.countP (fun x => x.tag == m.tag) ≤ 1 := by
      have := List.nodup_iff_count_le_one.1 distinct m.tag
      rwa [List.count, List.countP_map] at this
    refine le_trans ?_ one
    rw [changeMessage, State.setOutbound_outbound, ← List.countP_eq_length_filter, List.countP_map]
    refine List.countP_mono_left fun x hx h => ?_
    simp only [Function.comp] at h
    split at h
    · rename_i same
      exact beq_iff_eq.2 same
    · exact absurd (beq_iff_eq.1 h) (none x hx)

theorem outbound_commands : CommandStable State.OutboundLaw where
  raise k body s hs := hs.congr (raiseReport_touches s k body)
  frame _ _ h hs := hs.congr h (by simp [restPieces])
  flag n s _ hs := ⟨hs.congr (activate_touches s n), hs.congr (deactivate_touches s n)⟩
  late s hs := hs.congr (latchCycleLate_touches s)
  hands r s hs _ _ := hs
  goesOn r r' s hs _ _ := hs
  ends o s hs := outbound_endRecord o s hs
  sends c m s hs _ hm := outbound_attempted hm hs
  fetches r s hs _ _ _ := hs
  loses a s hs := outbound_loseMessages a s hs
  aborts s hs := overAll_keeps hs fun m _ u hu => outbound_settle m _ _ hu
  accepts m s hs queued fresh room _ := by
    obtain ⟨few, distinct, one⟩ := hs
    refine ⟨?_, ?_, ?_⟩
    · change (s.outbound ++ [m]).length ≤ _
      rw [List.length_append, List.length_singleton]
      exact room
    · change ((s.outbound ++ [m]).map (·.tag)).Nodup
      rw [List.map_append, List.nodup_append]
      refine ⟨distinct, List.nodup_singleton _, fun x hx y hy same => ?_⟩
      obtain ⟨z, hz, rfl⟩ := List.mem_map.1 hx
      rw [List.map_singleton, List.mem_singleton] at hy
      exact List.find?_eq_none.1 fresh z hz (by simp [same, hy])
    · change ((s.outbound ++ [m]).filter fun m => m.state == .inFlight).length ≤ 1
      rw [List.filter_append, List.filter_cons_of_neg (by rw [queued]; decide), List.filter_nil, List.append_nil]
      exact one
  cancels m s hs _ := outbound_settle m _ _ hs
  acks n gone kept s hs _ := State.OutboundLaw.congr (s := s.setReports { s.reports with sent := kept }) hs
    (overflowIfDue_touches _)
  resends s hs := hs
  levels ls s hs := hs
  clears n s hs := hs.congr (clearLatch_touches s n)
  offers s hs := hs.congr (takeOffer_touches s)
  babbles s hs := State.OutboundLaw.congr (s := s.setSeg { s.seg with babbleFault := true }) hs (activate_touches _ _)
  recovers s hs := State.OutboundLaw.congr (s := s.setSeg { s.seg with babbleFault := false }) hs (deactivate_touches _ _)
  holds s hs := hs
  resets c r s := ⟨Nat.zero_le _, List.nodup_nil, Nat.zero_le _⟩

/-! ## What the law of the record asks of the lines and of the messages -/

/-- A line whose CUE is on the line is one whose CUE was, bound as it was. -/
def CuesKept (s t : State) : Prop :=
  ∀ (i : Fin 8) (l' : InputLine), t.lines.records[i] = .input l' → l'.cueOnLine = true →
    ∃ l, s.lines.records[i] = .input l ∧ l.cueOnLine = true ∧ l'.binding = l.binding

/-- A message whose attempt is on the line is held on, with its destination and payload. -/
def AttemptsKept (s t : State) : Prop :=
  ∀ m ∈ s.outbound, m.state = .inFlight → m.onLine = true →
    ∃ m' ∈ t.outbound, m'.tag = m.tag ∧ m'.state = .inFlight ∧ m'.onLine = true ∧ m'.destination = m.destination ∧
      m'.payload = m.payload

theorem CuesKept.of_touches {ps : List Piece} (h : Touches ps s t) (hl : Piece.lines ∉ ps := by simp) : CuesKept s t := by
  have lines : t.lines = s.lines := h.same _ hl
  intro i l' hi cue
  exact ⟨l', by rw [← hi, lines], cue, rfl⟩

theorem CuesKept.trans (h : CuesKept s t) (h' : CuesKept t u) : CuesKept s u := fun i l' hi cue => by
  obtain ⟨l, hl, cue, same⟩ := h' i l' hi cue
  obtain ⟨k, hk, cue, same'⟩ := h i l hl cue
  exact ⟨k, hk, cue, same.trans same'⟩

theorem CuesKept.refl (s : State) : CuesKept s s := fun _ l' hi cue => ⟨l', hi, cue, rfl⟩

/-- A line takes a record that puts no new CUE on the line. -/
theorem putLine_cues {i : Fin 8} {r : LineRecord} (h : ∀ l', r = .input l' → l'.cueOnLine = true →
    ∃ l, s.lines.records[i] = .input l ∧ l.cueOnLine = true ∧ l'.binding = l.binding) : CuesKept s (putLine i r s) := by
  intro j l' hj cue
  rw [putLine_records] at hj
  split at hj
  · rename_i same
    subst same
    exact h l' hj cue
  · exact ⟨l', hj, cue, rfl⟩

/-- An INPUT line changes, but neither its CUE nor its binding. -/
theorem putLine_input_cues {i : Fin 8} {l l' : InputLine} (hl : s.lines.records[i] = .input l)
    (cue : l'.cueOnLine = l.cueOnLine) (binding : l'.binding = l.binding) : CuesKept s (putLine i (.input l') s) :=
  putLine_cues fun _ h on => by cases h; exact ⟨l, hl, cue ▸ on, binding⟩

theorem changeInput_cues (i : Fin 8) {f : InputLine → InputLine} (cue : ∀ l, (f l).cueOnLine = l.cueOnLine)
    (binding : ∀ l, (f l).binding = l.binding) (s : State) : CuesKept s (changeInput i f s) := by
  unfold changeInput
  split
  · rename_i l hl
    exact putLine_input_cues hl (cue l) (binding l)
  · exact .refl s

theorem notifyMirrors_cues (k : Key) (q : Quality) (v : List Byte) (s : State) : CuesKept s (notifyMirrors k q v s) := by
  refine overAll_keeps (.refl s) fun i _ t ht => ?_
  split
  · split
    · exact ht.trans (putLine_cues nofun)
    · exact ht
  · exact ht

theorem changePoint_cues (f : Point → Point) (p : Point) (s : State) : CuesKept s (changePoint f p s) := by
  have told : CuesKept s (if watched p (f p) then
      raiseReport .pointChanged (pointChangedBody (f p)) (s.setPoints (replacePoint s.points (f p)))
      else s.setPoints (replacePoint s.points (f p))) := by
    split
    · exact CuesKept.trans (t := s.setPoints (replacePoint s.points (f p))) (.refl s) (.of_touches (raiseReport_touches _ _ _))
    · exact .refl s
  unfold changePoint
  dsimp only
  split
  · exact told
  · exact told.trans (notifyMirrors_cues _ _ _ _)

theorem changePoints_cues (f : Point → Point) (ps : List Point) (s : State) : CuesKept s (changePoints f ps s) :=
  overAll_keeps (.refl s) fun p _ t ht => ht.trans (changePoint_cues f p t)

theorem publisherActive_cues (a : Nat) (s : State) : CuesKept s (publisherActive a s) := by
  unfold publisherActive
  split
  · exact changePoints_cues _ _ s
  · exact .refl s

theorem publisherGone_cues (a : Nat) (s : State) : CuesKept s (publisherGone a s) := by
  unfold publisherGone
  split
  · exact changePoints_cues _ _ s
  · exact .refl s

theorem dropTrigger_cues (i : Fin 8) (k : Key) (r : DropReason) (s : State) : CuesKept s (dropTrigger i k r s) :=
  (changeInput_cues i (f := fun l => { l with pending := false }) (fun _ => rfl) (fun _ => rfl) s).trans
    (.of_touches (raiseReport_touches _ _ _))

theorem dropLostTriggers_cues (a : Nat) (s : State) : CuesKept s (dropLostTriggers a s) := by
  refine overAll_keeps (.refl s) fun i _ t ht => ?_
  split
  · split
    · split
      · exact ht.trans (dropTrigger_cues i _ _ t)
      · exact ht
    · exact ht
  · exact ht

theorem changeFiltered_cues {i : Fin 8} {l : InputLine} (v : Level) (hl : s.lines.records[i] = .input l) :
    CuesKept s (changeFiltered i l v s) := by
  have put : ∀ l' : InputLine, l'.cueOnLine = l.cueOnLine → l'.binding = l.binding → CuesKept s (putLine i (.input l') s) :=
    fun l' cue binding => putLine_input_cues hl cue binding
  have triggered : ∀ (m : Mode) (l' : InputLine), (l'.triggered m).cueOnLine = l'.cueOnLine ∧
      (l'.triggered m).binding = l'.binding := fun m l' => by
    unfold InputLine.triggered
    split <;> exact ⟨rfl, rfl⟩
  unfold changeFiltered
  dsimp only
  split
  · refine CuesKept.trans ?_ (changeInput_cues i (fun l => (triggered _ l).1) (fun l => (triggered _ l).2) _)
    split
    · exact .trans (put { l with filtered := v, differsSince := none, edgeCount := l.edgeCount + 1 } rfl rfl)
        (.of_touches (raiseReport_touches _ _ _))
    · exact put _ rfl rfl
  · exact put _ rfl rfl

theorem seePin_cues (i : Fin 8) (v : Level) (s : State) : CuesKept s (seePin i v s) := by
  unfold seePin
  split
  · rename_i l hl
    split
    · exact putLine_input_cues hl rfl rfl
    · split
      · exact changeFiltered_cues v hl
      · exact putLine_input_cues hl rfl rfl
  · exact .refl s

theorem takeLasting_cues (i : Fin 8) (s : State) : CuesKept s (takeLasting i s) := by
  unfold takeLasting
  split
  · rename_i l hl
    split
    · split
      · exact changeFiltered_cues _ hl
      · exact .refl s
    · exact .refl s
  · exact .refl s

theorem forceOutputsSafe_cues (s : State) : CuesKept s (forceOutputsSafe s) := by
  refine overAll_keeps (.refl s) fun i _ t ht => ?_
  split
  · exact ht.trans (putLine_cues nofun)
  · exact ht

theorem startCycle_cues (s : State) : CuesKept s (startCycle s) :=
  changePoints_cues (Point.withQuality .noSource) s.points (s.setRoster { s.roster with probePointer := 1 })

theorem stopCycle_cues (s : State) : CuesKept s (stopCycle s) :=
  (changePoints_cues (Point.withQuality .offline) s.points
    (s.setSched { s.sched with mode := .stopping, markWaiting := false, waiting := [] })).trans
    (.of_touches (evaluateForeign_touches _))

theorem crossBoundary_cues (s : State) : CuesKept s (crossBoundary s) := by
  unfold crossBoundary
  extract_lets ended dropped opened aged gap calmed expired reported
  have late : CuesKept s (overrunLate s) := .of_touches (overrunLate_touches s)
  have skips : CuesKept (overrunLate s) (skipOverruns (overrunLate s)) := .of_touches (skipOverruns_touches _)
  have mark : CuesKept (skipOverruns (overrunLate s)) dropped := .of_touches (dropMark_touches _)
  have swap : CuesKept dropped (carryOutSwap dropped) := .of_touches (carryOutSwap_touches _)
  have opens : CuesKept (carryOutSwap dropped) opened := .of_touches (openCycle_touches _)
  have ages : CuesKept opened aged := changePoints_cues _ _ _
  have calms : CuesKept aged calmed := .of_touches (setGap_touches _ _)
  have foreign : CuesKept calmed expired := .of_touches (expireForeignByCycle_touches _)
  have skipped : CuesKept expired reported := .of_touches (reportSkips_touches _ _)
  exact (((late.trans skips).trans (mark.trans swap)).trans (opens.trans ages)).trans (calms.trans (foreign.trans skipped))

/-- SET_LINE puts no CUE on the line. -/
theorem ownSetLine_cues (p : List Byte) (s : State) : CuesKept s (ownSetLine p s).1 := by
  unfold ownSetLine
  split
  · exact .refl s
  · unfold configureLine
    split
    · exact putLine_cues nofun
    · exact putLine_cues fun l' h on => by cases h; cases on
    · split_ifs
      · exact .refl s
      · exact putLine_cues fun l' h on => by cases h; cases on
    · exact putLine_cues nofun
    · split
      · exact .refl s
      · split_ifs
        · exact putLine_cues fun l' h _ => by rw [newMirror_eq] at h; cases h
        · exact .refl s

theorem ownWriteLine_cues (p : List Byte) (s : State) : CuesKept s (ownWriteLine p s).1 := by
  unfold ownWriteLine
  split
  · split
    · exact putLine_cues nofun
    · exact .refl s
  · exact .refl s

theorem AttemptsKept.of_touches {ps : List Piece} (h : Touches ps s t) (ho : Piece.outbound ∉ ps := by simp) :
    AttemptsKept s t := by
  have outbound : t.outbound = s.outbound := h.same _ ho
  intro m hm flight on
  exact ⟨m, outbound ▸ hm, rfl, flight, on, rfl, rfl⟩

/-- The record in flight is the same but for its phase, or there is none; the lines and the messages keep their work. -/
theorem State.RecordLaw.congr (hs : s.RecordLaw)
    (record : ∀ r', t.txn.record = some r' → ∃ r, s.txn.record = some r ∧ r'.origin = r.origin ∧ r'.kind = r.kind ∧
      r'.target = r.target ∧ r'.body = r.body ∧ r'.expected = r.expected)
    (cues : CuesKept s t) (attempts : AttemptsKept s t) : t.RecordLaw := by
  intro r' hr'
  obtain ⟨r, hr, origin, kind, target, body, expected⟩ := record r' hr'
  have law := hs r hr
  rw [origin, kind, target, body, expected]
  revert law
  cases r.origin with
  | mark cycle start => exact id
  | slot offset => exact id
  | trigger i =>
    rintro ⟨cue, line⟩
    refine ⟨cue, fun l' hl' on => ?_⟩
    obtain ⟨l, hl, on, binding⟩ := cues i l' hl' on
    rw [binding]
    exact line l hl on
  | outbound x =>
    rintro ⟨sent, answer, m, hm, tag, flight, on, destination, bytes⟩
    obtain ⟨m', hm', tag', flight', on', destination', payload'⟩ := attempts m hm flight on
    exact ⟨sent, answer, m', hm', tag'.trans tag, flight', on', destination'.trans destination, by rw [payload']; exact bytes⟩
  | fetch => exact id
  | probe => exact id

theorem recordLaw_none (h : s.txn.record = none) : s.RecordLaw := fun r hr => by rw [h] at hr; cases hr

/-- The record is not touched. -/
theorem State.RecordLaw.kept (hs : s.RecordLaw) {ps : List Piece} (h : Touches ps s t) (cues : CuesKept s t)
    (attempts : AttemptsKept s t) (hr : Piece.record ∉ ps := by simp) : t.RecordLaw :=
  hs.congr (fun r hr' => ⟨r, (h.same .record hr).symm.trans hr', rfl, rfl, rfl, rfl, rfl⟩) cues attempts

/-- Neither the record, nor the lines, nor the messages are touched. -/
theorem State.RecordLaw.apart (hs : s.RecordLaw) {ps : List Piece} (h : Touches ps s t) (hr : Piece.record ∉ ps := by simp)
    (hl : Piece.lines ∉ ps := by simp) (ho : Piece.outbound ∉ ps := by simp) : t.RecordLaw :=
  hs.kept h (.of_touches h hl) (.of_touches h ho) hr

/-- R111: a message that ends is not the one whose attempt is on the line. -/
theorem settleMessage_attempts {x : Message} (o : MessageOutcome) (extra : List Byte)
    (other : ∀ m ∈ s.outbound, m.state = .inFlight → m.onLine = true → m.tag ≠ x.tag) :
    AttemptsKept s (settleMessage x o extra s) := by
  intro m hm flight on
  refine ⟨m, ?_, rfl, flight, on, rfl, rfl⟩
  rw [settleMessage_eq]
  exact (List.mem_eraseP_of_neg (by simpa using other m hm flight on)).2 hm

theorem changeMessage_attempts {x : Byte} {f : Message → Message} (tag : ∀ m, (f m).tag = m.tag)
    (work : ∀ m, (f m).state = m.state ∧ (f m).onLine = m.onLine ∧ (f m).destination = m.destination ∧
      (f m).payload = m.payload) (s : State) : AttemptsKept s (changeMessage x f s) := by
  intro m hm flight on
  refine ⟨_, List.mem_map_of_mem hm, ?_⟩
  split
  · obtain ⟨state, line, destination, payload⟩ := work m
    exact ⟨tag m, state.trans flight, line.trans on, destination, payload⟩
  · exact ⟨rfl, flight, on, rfl, rfl⟩

theorem AttemptsKept.trans (h : AttemptsKept s t) (h' : AttemptsKept t u) : AttemptsKept s u := fun m hm flight on => by
  obtain ⟨m', hm', tag', flight', on', destination', payload'⟩ := h m hm flight on
  obtain ⟨m'', hm'', tag'', flight'', on'', destination'', payload''⟩ := h' m' hm' flight' on'
  exact ⟨m'', hm'', tag''.trans tag', flight'', on'', destination''.trans destination', payload''.trans payload'⟩

/-- R59, R111: the message whose attempt is on the line is marked and held on. -/
theorem loseMessages_attempts (a : Nat) (hs : s.OutboundLaw) : AttemptsKept s (loseMessages a s) := by
  intro m hm flight on
  refine overAll_keeps (P := fun u => ∃ m' ∈ u.outbound, m'.tag = m.tag ∧ m'.state = .inFlight ∧ m'.onLine = true ∧
    m'.destination = m.destination ∧ m'.payload = m.payload) ⟨m, hm, rfl, flight, on, rfl, rfl⟩ fun x hx u hu => ?_
  have held : x ∈ s.outbound := (List.mem_filter.1 hx).1
  obtain ⟨m', hm', tag', flight', on', destination', payload'⟩ := hu
  unfold loseMessage
  split
  · obtain ⟨m'', hm'', tag'', flight'', on'', destination'', payload''⟩ :=
      changeMessage_attempts (x := x.tag) (f := fun x => { x with gone := true }) (fun _ => rfl)
        (fun _ => ⟨rfl, rfl, rfl, rfl⟩) u m' hm' flight' on'
    exact ⟨m'', hm'', tag''.trans tag', flight'', on'', destination''.trans destination', payload''.trans payload'⟩
  · rename_i other
    refine ⟨m', ?_, tag', flight', on', destination', payload'⟩
    rw [settleMessage_eq]
    refine (List.mem_eraseP_of_neg ?_).2 hm'
    rw [beq_iff_eq, tag']
    intro same
    rw [← hs.eq_of_tag hm held same.symm] at flight on
    exact other ⟨flight, on⟩

/-- R59: a station's loss keeps the work on the line. -/
theorem loseStation_record (a : Nat) (x : RosterState) (c : LostCause) (outbound : s.OutboundLaw) (hs : s.RecordLaw) :
    (loseStation a x c s).RecordLaw := by
  have entry := setEntry_touches s a { s.entry a with state := x }
  have report := raiseReport_touches (s.setEntry a { s.entry a with state := x }) .deviceLost (deviceLostBody a c (s.entry a))
  have before := (entry.mono (qs := [.entries, .reports, .conds])).trans report.mono
  unfold loseStation lossConsequences
  dsimp only
  generalize raiseReport .deviceLost (deviceLostBody a c (s.entry a)) (s.setEntry a { s.entry a with state := x }) = u at before ⊢
  have slots := (skipWaitingSlots_touches u a).mono (qs := [.waiting, .counts, .attention])
  have attention := slots.trans (removeAttention_touches (skipWaitingSlots a u) a).mono
  generalize removeAttention a (skipWaitingSlots a u) = v at attention ⊢
  have law : v.RecordLaw := (hs.apart before).apart attention
  have queue : v.OutboundLaw := (outbound.congr before).congr attention
  have messages : (loseMessages a v).RecordLaw :=
    law.kept (loseMessages_touches v a) (.of_touches (loseMessages_touches v a)) (loseMessages_attempts a queue)
  have points : (publisherGone a (loseMessages a v)).RecordLaw :=
    messages.kept (publisherGone_touches _ a) (publisherGone_cues a _) (.of_touches (publisherGone_touches _ a))
  exact points.kept (dropLostTriggers_touches _ a) (dropLostTriggers_cues a _) (.of_touches (dropLostTriggers_touches _ a))

/-! ## The requests and the candidates -/

/-- The laws of the outbound queue and of the record together. -/
def State.WorkLaw (s : State) : Prop := s.OutboundLaw ∧ s.RecordLaw

theorem work_admitEntry (a : Nat) (s : State) (hs : s.WorkLaw) : (admitEntry a s).1.WorkLaw := by
  refine ⟨outbound_commands.admitEntry a hs.1, ?_⟩
  unfold admitEntry
  split
  · rename_i i _ _
    have expected := setEntry_touches s a { s.entry a with expected := some i }
    have touched := becomeActive_touches (s.setEntry a { s.entry a with expected := some i }) a i false true
    refine (hs.2.apart expected).kept touched ?_ (.of_touches touched)
    exact ((CuesKept.of_touches (setEntry_touches _ a _)).trans (publisherActive_cues a _)).trans
      (.of_touches (raiseReport_touches _ _ _))
  · exact hs.2

theorem work_barEntry (a : Nat) (s : State) (hs : s.WorkLaw) : (barEntry a s).WorkLaw := by
  refine ⟨outbound_commands.barEntry a hs.1, ?_⟩
  unfold barEntry
  split
  · exact loseStation_record a _ _ hs.1 hs.2
  · exact hs.2.apart (setEntry_touches s a _)

theorem acceptMessage_attempts (m : Message) (s : State) : AttemptsKept s (acceptMessage m s) := fun x hx flight on =>
  ⟨x, List.mem_append_left _ hx, rfl, flight, on, rfl, rfl⟩

theorem work_send (p : List Byte) (s : State) (hs : s.RecordLaw) : (ownSend p s).1.RecordLaw := by
  have touched := ownSend_touches p s
  refine hs.kept touched (.of_touches touched) ?_
  unfold ownSend
  split
  · exact .of_touches (.refl [] s)
  · split
    · exact .of_touches (.refl [] s)
    · split
      · exact .of_touches (.refl [] s)
      · split
        · exact .of_touches (.refl [] s)
        · split
          · exact .of_touches (.refl [] s)
          · exact acceptMessage_attempts _ s

/-- R114: only a QUEUED message is cancelled. -/
theorem work_cancel (p : List Byte) (s : State) (hs : s.WorkLaw) : (ownCancel p s).1.RecordLaw := by
  have touched := ownCancel_touches p s
  refine hs.2.kept touched (.of_touches touched) ?_
  unfold ownCancel
  split
  · exact .of_touches (.refl [] s)
  · rename_i m found
    split
    · rename_i queued
      refine settleMessage_attempts _ _ fun x hx flight _ same => ?_
      rw [hs.1.eq_of_tag (message_some found).2 hx same, queued] at flight
      cases flight
    · exact .of_touches (.refl [] s)

theorem work_owner (r : RequestName) (p : List Byte) (s : State) (hs : s.WorkLaw) : (ownerOf r p s).1.WorkLaw := by
  have touched := ownerOf_touches r p s
  have line : Piece.outbound ∉ ownerPieces r → Piece.record ∉ ownerPieces r → CuesKept s (ownerOf r p s).1 →
      (ownerOf r p s).1.RecordLaw := fun ho hr cues => hs.2.kept touched cues (.of_touches touched ho) hr
  refine ⟨outbound_commands.ownerOf r p hs.1, ?_⟩
  by_cases others : ∀ x ∈ ownerPieces r, x ∉ [Piece.record, .lines, .outbound]
  · exact hs.2.apart touched (others .record · (by simp)) (others .lines · (by simp)) (others .outbound · (by simp))
  · cases r
    case start => exact line (by simp [ownerPieces, runPieces]) (by simp [ownerPieces, runPieces]) (startCycle_cues s)
    case stop => exact line (by simp [ownerPieces, runPieces]) (by simp [ownerPieces, runPieces]) (stopCycle_cues s)
    case admitStation => exact (CommandStable.forAddress (P := State.WorkLaw) work_admitEntry p hs).2
    case bar =>
      exact (CommandStable.forAddress (P := State.WorkLaw) (act := fun a u => accept (barEntry a u)) work_barEntry p hs).2
    case send => exact work_send p s hs.2
    case cancel => exact work_cancel p s hs
    case setLine => exact line (by simp [ownerPieces]) (by simp [ownerPieces]) (ownSetLine_cues p s)
    case writeLine => exact line (by simp [ownerPieces]) (by simp [ownerPieces]) (ownWriteLine_cues p s)
    all_goals exact absurd (by simp [ownerPieces]) others

/-- R106, R107: the message sent is IN_FLIGHT with its attempt on the line. -/
theorem work_startSend {c : MessageClass} {m : Message} (hm : offeredMessage c s = some m) (hs : s.OutboundLaw) :
    (startSend m s).WorkLaw := by
  refine ⟨(outbound_attempted hm hs : (changeMessage m.tag Message.attempted s).OutboundLaw), fun r hr => ?_⟩
  cases hr
  refine ⟨rfl, rfl, m.attempted, ?_, rfl, rfl, rfl, rfl, rfl⟩
  refine List.mem_map.2 ⟨m, (offeredMessage_some hm).1, if_pos rfl⟩

/-- R149: the line whose CUE goes on the line is bound to the point that the CUE asks for. -/
theorem work_startTrigger {i : Fin 8} {l : InputLine} {k : Key} (hl : s.lines.records[i] = .input l) (hk : l.binding = some k)
    (hs : s.OutboundLaw) : (startTrigger i k s).WorkLaw := by
  refine ⟨hs.congr (startTrigger_touches i k s), fun r hr => ?_⟩
  cases hr
  refine ⟨⟨rfl, k.number, rfl, rfl⟩, fun l' hl' _ => ⟨k, ?_, rfl⟩⟩
  have line : (changeInput i (fun l => { l with cueOnLine := true }) s).lines.records[i] = .input { l with cueOnLine := true } := by
    rw [changeInput_input _ hl]
    simp
  cases line.symm.trans hl'
  exact hk

/-! ## Every command -/

theorem State.WorkLaw.apart (hs : s.WorkLaw) {ps : List Piece} (h : Touches ps s t) (hr : Piece.record ∉ ps := by simp)
    (hl : Piece.lines ∉ ps := by simp) (ho : Piece.outbound ∉ ps := by simp) : t.WorkLaw :=
  ⟨hs.1.congr h ho, hs.2.apart h hr hl ho⟩

theorem State.WorkLaw.lines (hs : s.WorkLaw) {ps : List Piece} (h : Touches ps s t) (cues : CuesKept s t)
    (hr : Piece.record ∉ ps := by simp) (ho : Piece.outbound ∉ ps := by simp) : t.WorkLaw :=
  ⟨hs.1.congr h ho, hs.2.kept h cues (.of_touches h ho) hr⟩

/-- The record changes its phase, or is marked. -/
theorem State.WorkLaw.phase (hs : s.WorkLaw) {r r' : Record} (hr : s.txn.record = some r) (origin : r'.origin = r.origin)
    (kind : r'.kind = r.kind) (target : r'.target = r.target) (body : r'.body = r.body) (expected : r'.expected = r.expected) :
    (s.setTxn { s.txn with record := some r' }).WorkLaw :=
  ⟨hs.1, hs.2.congr (fun x hx => by cases hx; exact ⟨r, hr, origin, kind, target, body, expected⟩) (.refl s)
    (.of_touches (setRecord_touches s _))⟩

theorem work_laws : LawStable State.WorkLaw where
  frame _ _ h hs := hs.apart h (by simp [slackPieces]) (by simp [slackPieces]) (by simp [slackPieces])
  owner r p s hs _ := work_owner r p s hs
  resets c r s := ⟨outbound_commands.resets c r s, recordLaw_none rfl⟩
  holds s hs := ⟨hs.1, recordLaw_none rfl⟩
  safe s hs := hs.lines (forceOutputsSafe_touches s) (forceOutputsSafe_cues s)
  crosses s hs := hs.lines (crossBoundary_touches s) (crossBoundary_cues s) (by simp [boundaryPieces]) (by simp [boundaryPieces])
  closes s hs _ hr := ⟨outbound_commands.endStopping outbound_commands.aborts hs.1,
    recordLaw_none (((endStopping_touches s).same .record (by simp [stoppingEndPieces])).trans hr)⟩
  marks s hs _ _ := ⟨hs.1.congr (startMark_touches s), fun r hr => by cases hr; exact ⟨rfl, rfl, rfl, _, rfl⟩⟩
  slots x s hs _ _ := ⟨hs.1.congr (startSlot_touches x s), fun r hr => by cases hr; exact ⟨rfl, _, rfl, rfl⟩⟩
  gap :=
    { drop := fun i k s hs => by
        have same := dropTrigger_touches s i k .absent
        exact ⟨hs.1.lines same (dropTrigger_cues i k _ s), (same.same .mode (by simp)).trans hs.2.1,
          (same.same .record (by simp)).trans hs.2.2⟩
      trigger := fun i _ k s hs hl hk _ => work_startTrigger hl hk hs.1.1
      send := fun _ m s hs hm => work_startSend hm hs.1.1
      fetch := fun a rest s hs _ _ => ⟨hs.1.1.congr (startFetch_touches a rest s),
        fun r hr => by cases hr; exact ⟨rfl, rfl, rfl⟩⟩
      roll := fun a s hs _ => ⟨hs.1.1.congr (startRoll_touches a s), fun r hr => by cases hr; exact ⟨rfl, rfl, rfl⟩⟩ }
  ends o s r hs hr _ := ⟨outbound_endRecord o s hs.1, recordLaw_none (endRecord_record o s)⟩
  phase p s r hs hr _ := hs.phase hr rfl rfl rfl rfl rfl
  spoils s r hs hr := hs.phase hr rfl rfl rfl rfl rfl
  sends s r hs hr := hs.phase (r' := { r with phase := .sending s.now }) hr rfl rfl rfl rfl rfl
  rests v n s hs := hs.apart (returnToIdle_touches v n s)
  pins i v s hs := hs
  takes i s hs := hs.lines (takeLasting_touches i s) (takeLasting_cues i s)
  sees i v s hs := hs.lines (seePin_touches i v s) (seePin_cues i v s)
  filters i l v s hs hl := hs.lines (changeFiltered_touches i l v s) (changeFiltered_cues v hl)

/-- Settles O56: the queue's law stands by itself, and with it the record's. -/
theorem everyStepKeepsOutboundQueue : Obligations.EveryStepKeepsOutboundQueue := fun _ _ hs h =>
  ⟨step_keeps (P := State.OutboundLaw) (fun _ _ hs => hs) (fun _ hs => hs) outbound_commands.command hs h, fun record =>
    (step_keeps (P := State.WorkLaw) (fun _ _ hs => hs) (fun _ hs => hs) work_laws.command ⟨hs, record⟩ h).2⟩

end Sys2Proof.Machine
end

section
/-! PROOFS. The host link: receiving (R175-R178), transmitting (R128-R130, R172, R183), the resets (R188) and host silence
(R152). -/

-- One theorem after another: theorems checked side by side would each hold a thread.
set_option Elab.async false

namespace Sys2Proof.Machine

variable {s t u : State}

/-! ## The receive assembler (R175) -/

/-- Out of reset a happening is what its command gives. -/
theorem next_running {f : State → State} (hr : s.inReset = false) :
    Host.Outcome.next (unlessInReset f s) = (.next (f s) : Host.Outcome State Fault Refusal) :=
  congrArg Host.Outcome.next (unlessInReset_running hr)

theorem takeByte_hunting (b : Byte) (h : s.link.assembler = .hunting) : takeByte b s = huntByte b s := by
  unfold takeByte
  rw [h]

theorem takeByte_assembling (b : Byte) {bs : List Byte} (h : s.link.assembler = .assembling bs) :
    takeByte b s = assembleByte bs b s := by
  unfold takeByte
  rw [h]

theorem lenInRange_iff (b : Byte) : lenInRange b = true ↔ 4 ≤ b.toNat ∧ b.toNat ≤ 196 := by
  simp [lenInRange]

/-- R176, R177: what the link drops of a partial frame, out of reset. -/
theorem exec_linkFormatError {cause : LinkFault} (hr : s.inReset = false) : exec (.linkFormatError cause) s =
    .next (if formatErrorDrops cause s.link.assembler then dropFormat s else s) := next_running hr

/-- R175: the inter-byte timeout drops a partial frame, out of reset. -/
theorem exec_interByteTimeout (hr : s.inReset = false) : exec .interByteTimeout s =
    .next (match s.link.assembler with
      | .assembling _ => (s.reach (s.link.lastByteAt + 10241)).setLink
          { s.link with assembler := .hunting, timeoutTally := tallyUp s.link.timeoutTally }
      | _ => s) :=
  (next_running hr).trans rfl

/-- Settles O36: what each state of the assembler makes of a byte, of a fault and of silence on RXD. -/
theorem assemblerFollowsBytes : Obligations.AssemblerFollowsBytes := by
  intro b s hr
  have byte : exec (.linkByteReceived b) s = .next (takeByte b s) := next_running hr
  refine ⟨fun h => ?_, fun h => ?_, fun len bs h => ?_, fun bs h => ⟨?_, ?_⟩, fun h out => ?_, fun h => ⟨?_, ?_⟩⟩
  · rw [byte, takeByte_hunting b h]
    rfl
  · rw [byte, takeByte_assembling b h]
    refine congrArg Host.Outcome.next (if_congr (lenInRange_iff b) rfl rfl)
  · rw [byte, takeByte_assembling b h]
    have full : (len :: bs ++ [b]).length = len.toNat + 3 ↔ bs.length + 1 = len.toNat + 2 := by simp
    simp only [assembleByte, full]
    rfl
  · rw [exec_linkFormatError hr, h]
    rfl
  · rw [exec_interByteTimeout hr, h]
    rfl
  · have outside : lenInRange b = false := by
      rw [Bool.eq_false_iff, ne_eq, lenInRange_iff]
      omega
    rw [byte, takeByte_assembling b h, exec_linkFormatError hr, h]
    simp only [formatErrorDrops, assembleByte, outside]
    rfl
  · rw [exec_linkFormatError hr, h]
    rfl
  · rw [exec_interByteTimeout hr, h]

/-! ## The frame check accepts what it made (R159) -/

/-- R159: a bit that is the opposite of the register's own top bit. -/
theorem crcBit_xor (r d : Word16) : crcBit (r ^^^ d) (!r.msb) = (r <<< 1) ^^^ crcBit d true := by
  unfold crcBit
  rw [BitVec.msb_xor, BitVec.shiftLeft_xor_distrib]
  cases r.msb <;> cases d.msb <;> simp [BitVec.xor_assoc]

/-- R159: a register that is fed its own bits, each turned over, forgets them. -/
theorem crcBit_own_bits (r : Word16) (n : Nat) :
    (List.range n).foldl (fun g k => crcBit g (!r.getMsbD k)) r =
      (r <<< n) ^^^ (List.replicate n true).foldl crcBit 0 := by
  induction n with
  | zero => simp
  | succ n ih =>
    have top : (r <<< n).msb = r.getMsbD n := by
      simp [BitVec.msb, BitVec.getMsbD_shiftLeft]
    rw [List.range_succ, List.foldl_append, ih, List.replicate_succ', List.foldl_append, List.foldl_cons, List.foldl_nil,
      List.foldl_cons, List.foldl_nil, ← top, crcBit_xor, BitVec.shiftLeft_add]


theorem be16_word (x : Word16) : be16 x.toNat = [x.extractLsb' 8 8, x.extractLsb' 0 8] := by
  simp only [be16, byteOf, List.cons.injEq, and_true]
  constructor <;> apply BitVec.eq_of_toNat_eq <;> simp [BitVec.extractLsb'_toNat, Nat.shiftRight_eq_div_pow]

/-- R159: a register that takes its own check bytes ends at the residue. -/
theorem crcRegister_check (r : Word16) : (be16 (~~~ r).toNat).foldl crcByte r = 0x1D0F := by
  have bits : (be16 (~~~ r).toNat).foldl crcByte r = (List.range 16).foldl (fun g k => crcBit g (!r.getMsbD k)) r := by
    rw [be16_word]
    simp [crcByte, List.range_succ, BitVec.getMsbD, BitVec.getLsbD_extractLsb']
  rw [bits, crcBit_own_bits]
  have none : r <<< 16 = 0#16 := by
    apply BitVec.eq_of_toNat_eq
    simp
  rw [none, BitVec.zero_xor]
  decide +kernel

/-- R159: a run of bytes with its check bytes is sound. -/
theorem crcSound_crcBytes (bs : List Byte) : crcSound (bs ++ crcBytes bs) = true := by
  rw [crcSound, crcRegister_append, crcBytes, crcRegister_check]
  rfl

/-! ## Judging a frame (R176, R177, R184) -/

theorem exec_linkFrameReceived {bs : List Byte} (hr : s.inReset = false) (h : s.link.assembler = .complete bs) :
    exec .linkFrameReceived s = .next (judgeFrame bs s) := by
  refine (next_running hr).trans ?_
  rw [h]

/-- R174: the frame of a request is read back from its bytes. -/
theorem requestOf_inner (code : Byte) (num : Word16) (p : List Byte) (len : Byte) :
    requestOf ([len, 1, code] ++ be16 num.toNat ++ p ++ crcBytes ([len, 1, code] ++ be16 num.toNat ++ p)) =
      { code := code, num := num, payload := p } := by
  generalize hcrc : crcBytes _ = crc
  have check : crc.length = 2 := by rw [← hcrc]; rfl
  have number : field16 ([len, 1, code] ++ be16 num.toNat ++ p ++ crc) 3 = num.toNat := by
    rw [show field16 ([len, 1, code] ++ be16 num.toNat ++ p ++ crc) 3 = ofBytes (be16 num.toNat) from rfl, ofBytes_be16]
    exact Nat.mod_eq_of_lt num.isLt
  have payload : (([len, 1, code] ++ be16 num.toNat ++ p ++ crc).drop 5).take
      (([len, 1, code] ++ be16 num.toNat ++ p ++ crc).length - 7) = p := by
    rw [show ([len, 1, code] ++ be16 num.toNat ++ p ++ crc).drop 5 = p ++ crc from rfl]
    rw [show ([len, 1, code] ++ be16 num.toNat ++ p ++ crc).length - 7 = p.length by simp [check]; omega]
    exact List.take_left
  rw [requestOf, number, payload, BitVec.ofNat_toNat, BitVec.setWidth_eq]
  rfl

/-- R177: a request enters the buffer while it has a place, and is counted as an overrun otherwise. -/
theorem enterBuffer_eq (f : RequestFrame) (s : State) : enterBuffer f s = s.setLink { s.link with
    buffer := if s.link.buffer.length < 2 then s.link.buffer ++ [f] else s.link.buffer
    overrunTally := if s.link.buffer.length < 2 then s.link.overrunTally else min 65535 (s.link.overrunTally + 1) } := by
  unfold enterBuffer
  by_cases room : s.link.buffer.length < 2
  · rw [if_pos (show s.link.buffer.length < Config.bufferPlaces from room), if_pos room, if_pos room]
  · rw [if_neg (show ¬ s.link.buffer.length < Config.bufferPlaces from room), if_neg room, if_neg room]
    rfl

/-- Settles O37: the check, then CLASS, then the buffer. -/
theorem completeFrameIsJudged : Obligations.CompleteFrameIsJudged := by
  refine ⟨State.hold_iff, fun s bs hr h => ⟨fun unsound => ?_, fun sound cls => ?_, fun code num p short => ?_⟩⟩
  · rw [exec_linkFrameReceived hr h, judgeFrame]
    dsimp only
    rw [unsound]
    rfl
  · rw [exec_linkFrameReceived hr h, judgeFrame]
    dsimp only
    rw [sound, if_neg (by simp), if_pos (by simpa [classRequest] using cls)]
    rfl
  · rintro inner rfl
    rw [exec_linkFrameReceived hr h, judgeFrame]
    dsimp only
    rw [crcSound_crcBytes, if_neg (by simp), if_neg (by simp [inner, classRequest]), requestOf_inner, enterBuffer_eq]
    rfl

/-! ## Transmitting (R128-R130, R172, R183) -/

/-- R183: a response that leaves brings on what awaited it, and then the waiting response. -/
theorem finishFrame_response {f : LinkFrame} (h : s.link.sending = some f) (hf : f.cls = 2) :
    finishFrame s = startWaiting (afterResponse { s with now := s.leftTxd f, link := { s.link with sending := none } }) := by
  simp only [finishFrame, h, reach_frameEnd]
  rw [if_pos (show f.cls = classResponse from hf)]
  rfl

theorem afterResponse_plain (due : s.link.restartDue = false) (rate : s.link.newRate = none) : afterResponse s = s := by
  rw [afterResponse, due, rate]
  rfl

theorem afterResponse_rate {r : LinkRate} (due : s.link.restartDue = false) (rate : s.link.newRate = some r) :
    afterResponse s = applyRate r s := by
  rw [afterResponse, due, rate]
  rfl

/-- R183: the waiting response is sent from the free side. -/
theorem startWaiting_free (l : HostLink) (s : State) : startWaiting (s.setLink { l with sending := none }) =
    s.setLink { l with
      sending := l.waiting, waiting := none
      sendingSince := if l.waiting = none then l.sendingSince else s.now } := by
  cases l.waiting <;> simp [startWaiting, beginSending, State.setLink]

theorem sendingResponse_of {f : LinkFrame} (h : s.link.sending = some f) (hf : f.cls = 2) : s.link.sendingResponse = true := by
  simp [HostLink.sendingResponse, h, hf, classResponse]

theorem exec_linkFrameSent (hr : s.inReset = false) : exec .linkFrameSent s = .next (finishFrame s) := next_running hr

theorem exec_reportTaken (hr : s.inReset = false) (free : s.link.sending = none) (empty : s.link.waiting = none) :
    exec .reportTaken s = .next (takeOffer s) := by
  refine (next_running hr).trans ?_
  rw [free, empty]
  rfl

theorem find?_resendDue_none {es : List SentReport} (h : ∀ d ∈ es, d.resendDue = false) : es.find? (·.resendDue) = none :=
  List.find?_eq_none.2 fun d hd => by rw [h d hd]; decide

theorem clearFirstDue_append {pre post : List SentReport} {e : SentReport} (h : ∀ d ∈ pre, d.resendDue = false)
    (he : e.resendDue = true) : clearFirstDue (pre ++ e :: post) = pre ++ { e with resendDue := false } :: post := by
  induction pre with
  | nil => simp [clearFirstDue, he]
  | cons d pre ih =>
    have first := h d List.mem_cons_self
    simp [clearFirstDue, first, ih fun x hx => h x (List.mem_cons_of_mem d hx)]

/-- R128: the oldest UNSENT entry of the highest level. -/
theorem bestUnsent_append {pre post : List Report} {r : Report} (before : ∀ x ∈ pre, x.level < r.level)
    (after : ∀ x ∈ post, x.level ≤ r.level) : bestUnsent (pre ++ r :: post) = some r := by
  have highest : ((pre ++ r :: post).map (·.level)).max? = some r.level := by
    rw [List.max?_eq_some_iff]
    refine ⟨List.mem_map_of_mem (List.mem_append_right _ List.mem_cons_self), fun l hl => ?_⟩
    obtain ⟨x, hx, rfl⟩ := List.mem_map.1 hl
    rcases List.mem_append.1 hx with hx | hx
    · exact (before x hx).le
    · rcases List.mem_cons.1 hx with rfl | hx
      · exact le_rfl
      · exact after x hx
  unfold bestUnsent
  rw [highest]
  refine List.find?_eq_some_iff_append.2 ⟨beq_self_eq_true _, pre, post, rfl, fun x hx => ?_⟩
  simpa using (before x hx).ne

theorem eraseP_level_append {pre post : List Report} {r : Report} (before : ∀ x ∈ pre, x.level < r.level) :
    ((pre ++ r :: post).eraseP fun x => x.level == r.level) = pre ++ post := by
  rw [List.eraseP_append_right, List.eraseP_cons_of_pos]
  · exact beq_self_eq_true _
  · exact fun x hx => by simpa using (before x hx).ne

/-- R172: what TXD shows of a byte in its ten bit times. -/
theorem uartByte_getD (b : Byte) {k : Nat} (hk : k < 10) : (uartByte b)[k]? =
    some (if k = 0 then false else if k = 9 then true else b.getLsbD (k - 1)) := by
  interval_cases k <;> rfl

/-- Settles O38: the transmit side takes a response before a report, and a SENT report before an UNSENT one. -/
theorem transmitSideDecidesNext : Obligations.TransmitSideDecidesNext := by
  refine ⟨fun s f hr h => ?_, fun s hr free empty => ⟨fun pre e post sent before due => ?_,
    fun pre r post none few unsent before after => ?_, fun none full => ?_⟩, fun s => ⟨txd_rest, fun f h => ?_⟩⟩
  · intro left freed dropped
    refine ⟨fun hf => ?_, fun hf due rate => ?_, fun r hf due rate => ⟨?_, ?_⟩, fun hf due => ?_⟩
    · rw [exec_linkFrameSent hr, finishFrame_report h hf]
    · rw [exec_linkFrameSent hr, finishFrame_response h hf, afterResponse_plain (s := { s with now := s.leftTxd f, link := { s.link with sending := none } }) due rate]
      exact congrArg Host.Outcome.next (startWaiting_free s.link { s with now := left })
    · have partial_ : (applyRate r s).link.assembler = dropped := by
        unfold applyRate dropped
        cases s.link.assembler <;> rfl
      rw [exec_linkFrameSent hr, finishFrame_response h hf, afterResponse_rate (s := { s with now := s.leftTxd f, link := { s.link with sending := none } }) due rate, ← partial_]
      exact congrArg Host.Outcome.next (startWaiting_free
        { s.link with rate := r, newRate := none, assembler := (applyRate r s).link.assembler } { s with now := left })
    · rw [exec_linkFrameSent hr]
      refine (next_running hr).trans ?_
      rw [rate, sendingResponse_of h hf]
      rfl
    · rw [exec_linkFrameSent hr]
      refine Eq.symm ((next_running hr).trans ?_)
      rw [due, sendingResponse_of h hf]
      rfl
  · have found : s.reports.sent.find? (·.resendDue) = some e :=
      List.find?_eq_some_iff_append.2 ⟨due, pre, post, sent, fun d hd => by rw [before d hd]; rfl⟩
    rw [exec_reportTaken hr free empty, takeOffer, found, sent, clearFirstDue_append before due]
    rfl
  · rw [exec_reportTaken hr free empty, takeOffer, find?_resendDue_none none]
    dsimp only
    rw [if_pos (show s.reports.sent.length < Config.reportWindow from few), unsent, bestUnsent_append before after]
    dsimp only
    rw [eraseP_level_append before]
    rfl
  · rw [exec_reportTaken hr free empty, takeOffer, find?_resendDue_none none]
    dsimp only
    split
    · rename_i few
      rcases full with full | full
      · exact absurd few (Nat.not_lt.2 full)
      · rw [full]
        rfl
    · rfl
  · intro inner bytes gone
    have shown : s.txd = (bytes.flatMap uartByte).getD gone true := by
      rw [State.txd, h]
      rfl
    refine ⟨fun i b hb hi => ?_, fun past => ?_⟩
    · have place : gone = 10 * i + gone % 10 := by omega
      rw [shown, List.getD_eq_getElem?_getD, place, flatMap_uartByte_getElem? bytes i (gone % 10) b hb (Nat.mod_lt _ (by decide)),
        uartByte_getD b (Nat.mod_lt _ (by decide)), ← place]
      rfl
    · rw [shown, List.getD_eq_default]
      rw [flatMap_uartByte_length]
      exact past

/-! ## The resets (R188) and host silence (R152) -/

/-- Settles O39: each block takes its reset values whatever stood before. -/
theorem resetTakesResetValues : Obligations.ResetTakesResetValues := by
  intro s after
  refine ⟨rfl, rfl, fun f hr due sending cls => ?_, rfl⟩
  refine (next_running hr).trans ?_
  rw [due, sendingResponse_of sending cls, if_pos (by decide), finishFrame_response sending cls, afterResponse]
  rw [if_pos due]
  rfl

/-- R152: what host silence does to one line. -/
def forceLine (i : Fin 8) (s : State) : State :=
  match s.lines.records[i] with
  | .outputHost l => putLine i (.outputHost l.forced) s
  | _ => s

theorem forceOutputsSafe_eq (s : State) : forceOutputsSafe s = overAll allLines forceLine s := rfl

theorem forceLine_host {i : Fin 8} {l : HostLine} (h : s.lines.records[i] = .outputHost l) :
    forceLine i s = putLine i (.outputHost l.forced) s := by
  unfold forceLine
  rw [h]

theorem forceLine_other {i : Fin 8} (h : ∀ l, s.lines.records[i] ≠ .outputHost l) : forceLine i s = s := by
  unfold forceLine
  split
  · rename_i l hl
    exact absurd hl (h l)
  · rfl

/-- R152: only the line itself changes. -/
theorem forceLine_apart {i j : Fin 8} (h : j ≠ i) (s : State) :
    (forceLine i s).lines.records[j] = s.lines.records[j] ∧ (forceLine i s).lines.pins[j] = s.lines.pins[j] := by
  unfold forceLine
  split
  · rw [putLine_records, putLine_pins, if_neg h, if_neg fun both => h both.1]
    exact ⟨rfl, rfl⟩
  · exact ⟨rfl, rfl⟩

theorem forceOutputsSafe_line (s : State) (i : Fin 8) :
    (forceOutputsSafe s).lines.records[i] = (forceLine i s).lines.records[i] ∧
      (forceOutputsSafe s).lines.pins[i] = (forceLine i s).lines.pins[i] := by
  rw [forceOutputsSafe_eq]
  refine overAll_lines (fun i j t h => forceLine_apart h t) (fun i t record pin => ?_) i
  by_cases host : ∃ l, s.lines.records[i] = .outputHost l
  · obtain ⟨l, hl⟩ := host
    rw [forceLine_host hl, forceLine_host (record.trans hl)]
    simp only [putLine_records, putLine_pins, record, pin, and_self]
  · have other : ∀ l, s.lines.records[i] ≠ .outputHost l := fun l hl => host ⟨l, hl⟩
    rw [forceLine_other other, forceLine_other (by rw [record]; exact other)]
    exact ⟨record, pin⟩

theorem forceOutputsSafe_linesOnly (s : State) : forceOutputsSafe s = { s with lines := (forceOutputsSafe s).lines } := by
  refine overAll_keeps (P := fun u => u = { s with lines := u.lines }) rfl fun i _ u hu => ?_
  split
  · rename_i l _
    exact congrArg (fun v : State => { v with lines := (putLine i (.outputHost l.forced) u).lines }) hu
  · exact hu

/-- Settles O40: each OUTPUT_HOST line takes its safe level, line after line. -/
theorem hostSilenceForcesOutputsSafe : Obligations.HostSilenceForcesOutputsSafe := by
  intro s hr
  have taken : exec .hostSilentTimeout s = .next (if s.sched.params.holdTime ≠ 0 ∧ ¬ s.conds.hostSilent.active then
      forceOutputsSafe (activate .hostSilent (s.reach s.silenceEnd)) else s) := next_running hr
  refine ⟨fun idle => ?_, fun hold quiet => ?_⟩
  · rw [taken, if_neg]
    rintro ⟨hold, quiet⟩
    exact idle.elim hold quiet
  · have silent : activate .hostSilent (s.reach s.silenceEnd) = { s with
        now := max s.now (s.link.silenceStart + s.sched.params.holdTime * 10240)
        conds := { s.conds with hostSilent := { active := true, latched := true } } } := by
      unfold activate
      rw [if_neg (show ¬ ((s.reach s.silenceEnd).conds.get .hostSilent).active = true from by
        change ¬ s.conds.hostSilent.active = true
        rw [quiet]
        decide)]
      rfl
    refine ⟨forceOutputsSafe (activate .hostSilent (s.reach s.silenceEnd)), ?_, ?_, fun i => ?_⟩
    · rw [taken, if_pos ⟨hold, by rw [quiet]; decide⟩]
    · conv_lhs => rw [forceOutputsSafe_linesOnly]
      rw [silent]
    · obtain ⟨record, pin⟩ := forceOutputsSafe_line (activate .hostSilent (s.reach s.silenceEnd)) i
      rw [record, pin]
      have same : (activate .hostSilent (s.reach s.silenceEnd)).lines = s.lines := by rw [silent]
      refine ⟨fun l hl => ?_, fun other => ?_⟩
      · rw [forceLine_host (l := l) (by rw [same, hl])]
        intro v
        have level : l.forced = { l with current := v, forcedSafe := true } := by
          unfold v HostLine.forced safeShown
          cases l.safe <;> rfl
        simp only [putLine_records, putLine_pins, same, hl, level, LineRecord.drive, Option.getD_some, ne_eq,
          Option.some.injEq, true_and, if_true]
        exact ite_not ..
      · rw [forceLine_other (by rw [same]; exact other), same]
        exact ⟨rfl, rfl⟩

end Sys2Proof.Machine
end

section
/-! PROOFS. The cycle's claims (R14-R21), the end of STOPPING (R7), the transmitter (R28, R157-R159) and the boundary. -/

-- One theorem after another: theorems checked side by side would each hold a thread.
set_option Elab.async false

namespace Sys2Proof.Machine

variable {s t u : State}

/-! ## The claims of a cycle (R18-R21) -/

theorem exec_markStart (hr : s.inReset = false) : exec .markStart s =
    .next (if s.sched.mode = .run ∧ s.sched.markWaiting ∧ s.linePermits then startMark s else s) := next_running hr

theorem exec_slotLate (o : Nat) (hr : s.inReset = false) : exec (.slotLate o) s =
    .next (if s.sched.waiting.contains o then skipLate o (s.reach (slotSpanEnd o s)) else s) := next_running hr

/-- R20: the slot at an offset is due, and its nominal time has not been taken. -/
theorem exec_slotDue_comes {o : Nat} {x : Slot} (hr : s.inReset = false) (h : slotComing o s = some x)
    (run : s.sched.mode = .run) : exec (.slotDue o) s = .next (presentSlot x (s.reach (s.nominalAt o))) := by
  refine (next_running hr).trans ?_
  rw [h]
  exact congrArg Host.Outcome.next (if_pos run)

theorem exec_slotDue_none {o : Nat} (hr : s.inReset = false) (h : slotComing o s = none ∨ s.sched.mode ≠ .run) :
    exec (.slotDue o) s = .next s := by
  refine (next_running hr).trans ?_
  split
  · rename_i x hx
    rcases h with h | h
    · rw [h] at hx
      cases hx
    · exact congrArg Host.Outcome.next (if_neg h)
  · rfl

theorem slotComing_eq_some_iff {o : Nat} {x : Slot} : slotComing o s = some x ↔
    slotAt s.sched.active o = some x ∧ s.sched.cycle.toNat % x.divisor = x.phase ∧ o ∉ s.sched.presented := by
  simp [slotComing, Option.filter_eq_some_iff, Slot.due]

theorem exec_slotStart_starts {x : Slot} (hr : s.inReset = false) (h : firstWaiting s = some x) (run : s.sched.mode = .run)
    (mark : s.sched.markWaiting = false) (permits : s.linePermits = true) (inTime : s.now ≤ slotSpanEnd x.offset s) :
    exec .slotStart s = .next (startSlot x s) := by
  refine (next_running hr).trans ?_
  rw [h]
  exact congrArg Host.Outcome.next (if_pos ⟨run, by rw [mark]; decide, permits, inTime⟩)

theorem exec_slotStart_none (hr : s.inReset = false) (h : ∀ x, firstWaiting s = some x → s.sched.mode = .run →
    s.sched.markWaiting = false → s.linePermits = true → slotSpanEnd x.offset s < s.now) : exec .slotStart s = .next s := by
  refine (next_running hr).trans ?_
  split
  · rename_i x hx
    refine congrArg Host.Outcome.next (if_neg ?_)
    rintro ⟨run, mark, permits, inTime⟩
    exact absurd inTime (Nat.not_le.2 (h x hx run (by simpa using mark) permits))
  · rfl

theorem slotAt_offset {bank : List Slot} {o : Nat} {x : Slot} (h : slotAt bank o = some x) : x.offset = o := by
  simpa using List.find?_some h

/-- R20: a slot that comes joins the waiting ones, or is skipped ABSENT. -/
theorem presentSlot_eq (x : Slot) (s : State) : presentSlot x s = s.setSched { s.sched with
    presented := insertOffset x.offset s.sched.presented
    waiting := if s.stationActive x.address then insertOffset x.offset s.sched.waiting else s.sched.waiting
    absentTally := if s.stationActive x.address then s.sched.absentTally else s.sched.absentTally + 1 } := by
  unfold presentSlot
  by_cases active : s.stationActive x.address = true
  · rw [if_pos active, if_pos active]
    exact if_pos active
  · rw [if_neg active, if_neg active]
    exact if_neg active

/-- Settles O42: what waits starts when the line permits, or is skipped in its time. -/
theorem claimsWaitStartAndExpire : Obligations.ClaimsWaitStartAndExpire := by
  intro s hr placed
  refine ⟨s.linePermits_iff, fun idle => ?_, fun run mark permits => ?_, fun o x found due fresh run => ?_,
    fun o rest x waiting once found run mark permits inTime => ?_, fun o idle => ?_, fun idle => ?_, fun o absent => ?_,
    fun o waits => ?_⟩
  · rw [exec_markStart hr, if_neg]
    rintro ⟨run, mark, permits⟩
    rcases idle with h | h | h
    · exact h run
    · rw [h] at mark
      cases mark
    · rw [h] at permits
      cases permits
  · rw [exec_markStart hr, if_pos ⟨run, mark, permits⟩]
    rfl
  · rw [exec_slotDue_comes hr (slotComing_eq_some_iff.2 ⟨found, due, fresh⟩) run]
    obtain rfl := slotAt_offset found
    rw [presentSlot_eq, insertOffset_eq, insertOffset_eq]
    rfl
  · have first : firstWaiting s = some x := by rw [firstWaiting, waiting]; exact found
    obtain rfl := slotAt_offset found
    have left : s.sched.waiting.filter (· != x.offset) = rest := by
      rw [waiting, List.filter_cons_of_neg (by simp), List.filter_eq_self]
      exact fun p hp => by simpa using fun same : p = x.offset => once (same ▸ hp)
    rw [exec_slotStart_starts hr first run mark permits inTime, startSlot, left]
    rfl
  · refine exec_slotDue_none hr ?_
    rw [Option.eq_none_iff_forall_ne_some]
    rcases idle with none | taken | stopped
    · exact .inl fun x hx => none x (slotComing_eq_some_iff.1 hx).1 (slotComing_eq_some_iff.1 hx).2.1
    · exact .inl fun x hx => (slotComing_eq_some_iff.1 hx).2.2 taken
    · exact .inr stopped
  · refine exec_slotStart_none hr fun x hx run mark permits => ?_
    rcases idle with h | h | h | h | ⟨o, rest, waiting, late⟩
    · exact absurd run h
    · rw [mark] at h
      cases h
    · rw [permits] at h
      cases h
    · rw [firstWaiting, h] at hx
      cases hx
    · rw [firstWaiting, waiting] at hx
      obtain rfl := slotAt_offset (bank := s.sched.active) hx
      exact late
  · rw [exec_slotLate o hr, if_neg (by simpa using absent)]
  · rw [exec_slotLate o hr, if_pos (by simpa using waits), skipLate, recordSkip_eq]
    rfl

/-! ## The transmitter (R28, R157-R159, R165) -/

theorem exec_transmitStart {r : Record} {since : Nat} (hr : s.inReset = false) (held : s.txn.record = some r)
    (phase : r.phase = .waitingLine since) (quiet : s.seg.activity = .quiet) :
    exec .transmitStart s = .next (leaveIdle r (s.reach s.turnaroundAt)) := by
  refine (next_running hr).trans ?_
  rw [held]
  dsimp only
  rw [phase]
  exact congrArg Host.Outcome.next (if_pos quiet)

theorem latchCycleLate_eq (s : State) : latchCycleLate s = s.setConds { s.conds with cycleLate :=
    { active := false, latched := s.conds.cycleLate.latched || !s.conds.cycleLate.active } } := by
  rw [latchCycleLate, activate_eq]
  rfl

theorem measureMark_other {o : Origin} (h : ∀ cycle nominal, o = .mark cycle nominal →
    ticksBetween nominal s.now ≤ s.sched.params.tolerance) : measureMark o s = s := by
  unfold measureMark
  split
  · rename_i cycle nominal
    exact if_neg (Nat.not_lt.2 (h cycle nominal rfl))
  · rfl

/-- Settles O44: the pins follow the symbols of the frame half-bit by half-bit. -/
theorem transmitterLeavesIdle : Obligations.TransmitterLeavesIdle := by
  refine ⟨fun s => ⟨idle_pins, fun body since n x h hx => ?_⟩, fun s r since hr held phase quiet => ?_⟩
  · intro bit low high
    have bits : s.bits 1 = bit := by
      unfold bit State.bits bitClocks
      cases s.sched.params.rate <;> rfl
    rw [← bits] at low high ⊢
    obtain ⟨place, level⟩ := segTx_symbol h hx low high
    refine ⟨?_, ?_, level⟩
    · rw [State.transmitterState, h]
      dsimp only
      rw [place]
      rw [show 12 + 6 + 8 * body.length + 16 = 34 + 8 * body.length by omega]
    · rw [State.segTxen, h]
      rfl
  · intro start sending
    rw [exec_transmitStart hr held phase quiet]
    refine ⟨fun cycle nominal origin late => ?_, fun inTime => ?_⟩
    · have left : leaveIdle r (s.reach s.turnaroundAt) = measureMark r.origin sending := rfl
      rw [left, origin, measureMark]
      dsimp only
      rw [if_pos (show sending.sched.params.tolerance < ticksBetween nominal sending.now from late), latchCycleLate_eq]
      rfl
    · exact congrArg Host.Outcome.next (measureMark_other (s := sending) inTime)

end Sys2Proof.Machine
end

section
/-! PROOFS. The end of STOPPING (R7, R67, R113, R121, R155). -/

-- One theorem after another: theorems checked side by side would each hold a thread.
set_option Elab.async false

namespace Sys2Proof.Machine

variable {s t u : State}

/-! ## The end of STOPPING (R7, R67, R113, R121, R155) -/

/-- R125, R126: a report takes the queue and REPORT_LOSS of any state that shows the same two. -/
theorem raiseReport_of (k : ReportKind) (body : List Byte) (hr : t.reports = s.reports)
    (hl : t.conds.reportLoss = s.conds.reportLoss) : raiseReport k body t = { t with
      reports := (raiseReport k body s).reports
      conds := { t.conds with reportLoss := (raiseReport k body s).conds.reportLoss } } := by
  obtain ⟨reports, loss⟩ := raiseReport_congr k body hr hl
  obtain ⟨us, n, c, frame⟩ := raiseReport_frame k body t
  rw [← reports, ← loss, frame]

/-- R125, R126: so do reports raised one after the other. -/
theorem raising_of (rs : List (ReportKind × List Byte)) (hr : t.reports = s.reports)
    (hl : t.conds.reportLoss = s.conds.reportLoss) : t.raising rs = { t with
      reports := (s.raising rs).reports
      conds := { t.conds with reportLoss := (s.raising rs).conds.reportLoss } } := by
  induction rs generalizing s t with
  | nil =>
    change t = { t with reports := s.reports, conds := { t.conds with reportLoss := s.conds.reportLoss } }
    rw [← hr, ← hl]
  | cons r rs ih =>
    have first := raiseReport_of r.1 r.2 hr hl
    change (raiseReport r.1 r.2 t).raising rs = _
    rw [first]
    exact ih rfl rfl

theorem raiseReport_conds (k : ReportKind) (body : List Byte) (s : State) :
    (raiseReport k body s).conds = { s.conds with reportLoss := (raiseReport k body s).conds.reportLoss } :=
  (RaisedExactly.one k body s).conds

theorem raising_conds (rs : List (ReportKind × List Byte)) (s : State) :
    (s.raising rs).conds = { s.conds with reportLoss := (s.raising rs).conds.reportLoss } :=
  congrArg State.conds (raising_of (s := s) rs rfl rfl)

/-- R15: a pending swap is discarded with its report. -/
theorem discardSwap_eq (s : State) : discardSwap s =
    State.raising (if s.sched.swapPending then [(.swapDiscarded, [byteOf s.sched.shadow.length])] else [])
      { s with sched := { s.sched with swapPending := false } } := by
  unfold discardSwap
  by_cases pending : s.sched.swapPending = true
  · rw [if_pos pending, if_pos pending]
    rfl
  · have clear : s.sched.swapPending = false := Bool.eq_false_iff.2 pending
    rw [if_neg pending, if_neg pending, ← clear]
    rfl

/-- R111: none of the messages that end stays held. -/
theorem filter_ended {xs ms : List Message} (h : xs ⊆ ms) :
    xs.filter (fun x => !(ms.map (·.tag)).contains x.tag) = [] := by
  refine List.filter_eq_nil_iff.2 fun x hx => ?_
  have ended : x.tag ∈ ms.map (·.tag) := List.mem_map_of_mem (h hx)
  simpa using ended

/-- R113: every message ends ABORTED, in acceptance order. -/
theorem overAll_aborted {ms : List Message} (h : s.outbound = ms) :
    overAll ms (fun m => settleMessage m .aborted []) s = s.settling ms 4 [] := by
  induction ms generalizing s with
  | nil => exact (settling_nil _ _ s).symm
  | cons m ms ih =>
    have left : s.outbound.eraseP (fun x => x.tag == m.tag) = ms := by
      rw [h]
      exact List.eraseP_cons_of_pos (beq_self_eq_true m.tag)
    rw [overAll_cons, ih (by rw [settleMessage_eq, left])]
    unfold State.settling
    rw [settleMessage_eq]
    dsimp only
    rw [left, h, filter_ended (List.Subset.refl ms), filter_ended (List.Subset.refl _), List.append_assoc, Nat.sub_sub,
      List.length_cons, Nat.add_comm 1]
    rfl

theorem abortMessages_eq (s : State) : abortMessages s = { s.settling s.outbound 4 [] with outbound := [] } := by
  have ended : (s.settling s.outbound 4 []).outbound = [] := filter_ended (List.Subset.refl s.outbound)
  rw [← ended]
  exact overAll_aborted rfl

/-- R67: the roster alone takes what STOPPING's end does to its entries. -/
theorem settleRoster_rest (s : State) : settleRoster s = { s with roster := (settleRoster s).roster } :=
  overAll_keeps (P := fun u => u = { s with roster := u.roster }) rfl fun a _ u hu =>
    (setEntry_frame u a _).trans (congrArg (fun v : State =>
      { v with roster := (u.setEntry a (u.entry a).afterStop).roster }) hu)

/-- R67: each entry of the roster is settled on its own. -/
theorem settleRoster_entry {a : Nat} (low : 1 ≤ a) (high : a ≤ 62) :
    (settleRoster s).entry a = (s.entry a).afterStop := by
  have settled : ∀ (xs : List Nat) (u : State), xs.Nodup →
      (overAll xs (fun a t => t.setEntry a (t.entry a).afterStop) u).entry a =
        if a ∈ xs then (u.entry a).afterStop else u.entry a := by
    intro xs
    induction xs with
    | nil => exact fun _ _ => rfl
    | cons x xs ih =>
      intro u distinct
      obtain ⟨fresh, distinct⟩ := List.nodup_cons.1 distinct
      rw [overAll_cons, ih _ distinct]
      by_cases here : x = a
      · subst here
        rw [if_neg fresh, if_pos List.mem_cons_self, entry_setEntry]
        exact if_pos ⟨rfl, low, high⟩
      · have other : (u.setEntry x (u.entry x).afterStop).entry a = u.entry a := by
          rw [entry_setEntry]
          exact if_neg fun same => here same.1.symm
        rw [other]
        exact if_congr (by simp [Ne.symm here]) rfl rfl
  refine (settled stationAddresses s ?_).trans (if_pos (mem_stationAddresses.2 ⟨low, high⟩))
  exact List.nodup_range.map fun _ _ same => Nat.succ.inj same

/-- R67: what STOPPING's end leaves of an entry, state by state in one line. -/
theorem RosterEntry.afterStop_eq (e : RosterEntry) : e.afterStop = { e with
    state := if e.state = .barred then .barred else .vacant
    seen := if e.state = .held then none else e.seen
    miss := 0 } := by
  unfold RosterEntry.afterStop
  split <;> (rename_i was; simp [was])

/-- R143: the record of a line, changed where the line is an INPUT. -/
def LineRecord.changed (f : InputLine → InputLine) : LineRecord → LineRecord
  | .input l => .input (f l)
  | r => r

theorem LineRecord.changed_other {r : LineRecord} (f : InputLine → InputLine) (h : ∀ l, r ≠ .input l) :
    r.changed f = r := by
  cases r with
  | input l => exact absurd rfl (h l)
  | off => rfl
  | outputHost l => rfl
  | outputMirror l => rfl

/-- R143: a change of an INPUT line reaches no other line's record. -/
theorem changeInput_records (i j : Fin 8) (f : InputLine → InputLine) (s : State) :
    (changeInput i f s).lines.records[j] = if j = i then s.lines.records[i].changed f else s.lines.records[j] := by
  by_cases input : ∃ l, s.lines.records[i] = .input l
  · obtain ⟨l, hl⟩ := input
    have changed : s.lines.records[i].changed f = .input (f l) := by rw [hl]; rfl
    rw [changeInput_input f hl, changed]
    exact set_getElem_line _ i j _
  · have other : ∀ l, s.lines.records[i] ≠ .input l := fun l hl => input ⟨l, hl⟩
    rw [changeInput_other f other, LineRecord.changed_other f other]
    split
    · rename_i here
      rw [here]
    · rfl

theorem changeInput_rest (i : Fin 8) (f : InputLine → InputLine) (s : State) :
    changeInput i f s = { s with lines := (changeInput i f s).lines } := by
  unfold changeInput
  split <;> rfl

/-- R155: what the end of STOPPING does to one line. -/
def untrigger (i : Fin 8) (s : State) : State := changeInput i (fun l => { l with pending := false }) s

theorem clearTriggers_eq (s : State) : clearTriggers s = overAll allLines untrigger s := rfl

theorem untrigger_line (i j : Fin 8) (s : State) :
    (untrigger i s).lines.records[j] =
      (if j = i then s.lines.records[i].changed (fun l => { l with pending := false }) else s.lines.records[j]) ∧
      (untrigger i s).lines.pins = s.lines.pins :=
  ⟨changeInput_records i j _ s, changeInput_pins i _ s⟩

theorem clearTriggers_rest (s : State) : clearTriggers s = { s with lines := (clearTriggers s).lines } := by
  rw [clearTriggers_eq]
  refine overAll_keeps (P := fun u => u = { s with lines := u.lines }) rfl fun i _ u hu => ?_
  rw [untrigger, changeInput_rest]
  exact congrArg (fun v : State => { v with lines := (untrigger i u).lines }) hu

/-- R155: no trigger stays set, and no pin moves. -/
theorem clearTriggers_line (i : Fin 8) (s : State) :
    (clearTriggers s).lines.records[i] = s.lines.records[i].changed (fun l => { l with pending := false }) ∧
      (clearTriggers s).lines.pins[i] = s.lines.pins[i] := by
  rw [clearTriggers_eq]
  obtain ⟨record, pin⟩ := overAll_lines (f := untrigger) (s := s)
    (fun i j t apart => ⟨by rw [(untrigger_line i j t).1, if_neg apart], by rw [(untrigger_line i j t).2]⟩)
    (fun i t same pin => ⟨by rw [(untrigger_line i i t).1, (untrigger_line i i s).1, if_pos rfl, if_pos rfl, same],
      by rw [(untrigger_line i i t).2, (untrigger_line i i s).2]; exact pin⟩) i
  rw [record, pin, (untrigger_line i i s).1, (untrigger_line i i s).2, if_pos rfl]
  exact ⟨rfl, rfl⟩

/-- R7: what the end of STOPPING leaves, with the reports as a queue of their own. -/
theorem endStopping_eq (s : State) :
    let q := State.raising [(.stopped, be32 s.sched.cycle.toNat)]
      ((s.raising (if s.sched.swapPending then [(.swapDiscarded, [byteOf s.sched.shadow.length])] else [])).settling
        s.outbound 4 [])
    ∃ u v : State, u.roster = s.roster ∧ v.lines = s.lines ∧
      endStopping s = { s with
        sched := { s.sched with
          mode := .config, configSince := s.now, summary := { count := 0, first := none, firstCue := none }
          presented := []
          swapPending := false }
        roster := (settleRoster u).roster, attention := [], outbound := [], lines := (clearTriggers v).lines
        reports := q.reports
        conds := { q.conds with foreign := { s.conds.foreign with
          active := s.conds.foreign.active &&
            !decide (∃ f, s.txn.lastForeign = some f ∧ f + 1024000 ≤ s.now) } } } := by
  intro q
  unfold endStopping
  extract_lets sched opened swapped settled unattended aborted untriggered evaluated left was
  obtain ⟨w, hw⟩ : ∃ w, s.raising (if s.sched.swapPending then [(.swapDiscarded, [byteOf s.sched.shadow.length])] else []) = w := ⟨_, rfl⟩
  have kept : w.conds = { s.conds with reportLoss := w.conds.reportLoss } := hw ▸ raising_conds _ s
  have swap : swapped = { s with
      sched := { s.sched with
        mode := .config, configSince := s.now, summary := { count := 0, first := none, firstCue := none }
        presented := []
        swapPending := false }
      reports := w.reports, conds := { s.conds with reportLoss := w.conds.reportLoss } } := by
    rw [← hw]
    exact (discardSwap_eq opened).trans (raising_of (s := s) _ rfl rfl)
  have roster : settled = { swapped with roster := (settleRoster swapped).roster } := settleRoster_rest swapped
  have queue : aborted = { unattended.settling unattended.outbound 4 [] with outbound := [] } :=
    abortMessages_eq unattended
  have lines : untriggered = { aborted with lines := (clearTriggers aborted).lines } := clearTriggers_rest aborted
  have foreign : evaluated = _ := evaluateForeign_eq untriggered
  clear_value evaluated
  clear_value untriggered
  clear_value aborted
  clear_value settled
  clear_value swapped
  have swappedRoster : swapped.roster = s.roster := by subst swap; rfl
  have swappedLines : swapped.lines = s.lines := by subst swap; rfl
  have settledLines : settled.lines = swapped.lines := by rw [roster]
  have abortedLines : aborted.lines = settled.lines := by rw [queue]; rfl
  have keptLines : aborted.lines = s.lines := by rw [abortedLines, settledLines, swappedLines]
  refine ⟨swapped, aborted, ?_⟩
  refine And.intro swappedRoster (And.intro keptLines ?_)
  generalize (settleRoster swapped).roster = settledRoster at roster ⊢
  generalize (clearTriggers aborted).lines = clearedLines at lines ⊢
  clear swappedRoster swappedLines settledLines abortedLines
  subst foreign lines queue roster swap
  refine Eq.trans (raiseReport_of (s := w.settling s.outbound 4 []) _ _ rfl rfl) ?_
  obtain ⟨z, hz⟩ : ∃ z, raiseReport .stopped (be32 s.sched.cycle.toNat) (w.settling s.outbound 4 []) = z := ⟨_, rfl⟩
  have queue : q = z := by
    rw [← hz, ← hw]
    rfl
  have conds : left = { s.conds with reportLoss := z.conds.reportLoss } := by
    have last := raiseReport_conds .stopped (be32 s.sched.cycle.toNat) (w.settling s.outbound 4 [])
    rw [hz] at last
    exact (congrArg State.conds queue).trans (last.trans
      (congrArg (fun c : ConditionSet => { c with reportLoss := z.conds.reportLoss }) kept))
  clear_value left q
  subst left queue hz
  rfl

/-- Settles O43: the reports of a swap, of each message and of STOPPED, in that order. -/
theorem stoppingEndsInConfig : Obligations.StoppingEndsInConfig := by
  intro s hr stopping
  have taken : exec .stoppingEnd s = .next (if s.sched.mode = .stopping ∧ s.txn.record = none then endStopping s else s) :=
    next_running hr
  refine ⟨fun busy => taken.trans (congrArg _ (if_neg fun both => busy both.2)), fun idle => ?_⟩
  intro q
  obtain ⟨u, v, roster, lines, ends⟩ := endStopping_eq s
  have pointer : (settleRoster u).roster.probePointer = u.roster.probePointer := (settleRoster_touches u).same .pointer (by simp)
  have entries := fun a low high => settleRoster_entry (s := u) (a := a) low high
  have triggers := fun i => clearTriggers_line i v
  refine ⟨endStopping s, taken.trans (congrArg _ (if_pos ⟨stopping, idle⟩)), ?_⟩
  generalize endStopping s = t at ends ⊢
  generalize settleRoster u = settled at ends pointer entries
  generalize clearTriggers v = cleared at ends triggers
  subst ends
  refine ⟨rfl, ?_, fun a low high => ?_, fun i => ?_⟩
  · rw [← roster]
    exact pointer
  · have entry : u.entry a = s.entry a := by rw [State.entry, State.entry, roster]
    exact (entries a low high).trans (by rw [RosterEntry.afterStop_eq, entry])
  · obtain ⟨record, pin⟩ := triggers i
    rw [lines] at record pin
    refine ⟨pin, record.trans ?_⟩
    unfold LineRecord.changed
    cases s.lines.records[i] <;> rfl

end Sys2Proof.Machine
end

section
/-! PROOFS. The boundary (R16, R17, R19, R23, R39, R82). -/

-- One theorem after another: theorems checked side by side would each hold a thread.
set_option Elab.async false

namespace Sys2Proof.Machine

variable {s t u : State}

/-! ## The ending cycle is closed (R17, R19, R21) -/

theorem overrunLate_eq (s : State) : overrunLate s = { s with sched := { s.sched with
    summary := if s.sched.markWaiting then s.sched.summary.lateAsOverrun s.now else s.sched.summary } } := by
  unfold overrunLate
  split <;> rfl

/-- R21: slots skipped at one instant for one reason. -/
theorem overAll_recordSkip (xs : List Slot) (r : SkipReason) (s : State) :
    overAll xs (fun x => recordSkip x.offset r) s = { s with sched := { s.sched with
      summary := xs.foldl (fun m x => m.plus { offset := x.offset, reason := r, instant := s.now }) s.sched.summary
      skipTotal := s.sched.skipTotal + BitVec.ofNat 32 xs.length } } := by
  induction xs generalizing s with
  | nil => simp
  | cons x xs ih =>
    have sum : s.sched.skipTotal + 1 + BitVec.ofNat 32 xs.length = s.sched.skipTotal + BitVec.ofNat 32 (xs.length + 1) := by
      rw [BitVec.ofNat_add, BitVec.add_assoc, BitVec.add_comm 1]
      rfl
    rw [overAll_cons, recordSkip_eq, ih]
    simp only [State.skipping, List.foldl_cons, List.length_cons, sum]

theorem skipOverruns_eq (s : State) : skipOverruns s = { s with sched := { s.sched with
    summary := (overrunSlots s).foldl (fun m x => m.plus { offset := x.offset, reason := .overrun, instant := s.now })
      s.sched.summary
    skipTotal := s.sched.skipTotal + BitVec.ofNat 32 (overrunSlots s).length
    waiting := [] } } := by
  unfold skipOverruns
  rw [overAll_recordSkip]
  rfl

/-- R19: the report of a MARK that never went out. -/
def Scheduler.lostMark (c : Scheduler) : List (ReportKind × List Byte) :=
  if c.markWaiting then [(.cycleLate, be32 c.cycle.toNat ++ be32 c.params.period ++ [0])] else []

/-- R19: CYCLE_LATE after a boundary. -/
def State.lateAtBoundary (s : State) : Condition :=
  if s.sched.markWaiting then { active := false, latched := s.conds.cycleLate.latched || !s.conds.cycleLate.active }
  else s.conds.cycleLate

theorem dropMark_eq (s : State) : dropMark s = State.raising s.sched.lostMark { s with
    sched := { s.sched with markWaiting := false }, conds := { s.conds with cycleLate := s.lateAtBoundary } } := by
  unfold dropMark Scheduler.lostMark State.lateAtBoundary
  by_cases mark : s.sched.markWaiting = true
  · rw [if_pos mark, if_pos mark, if_pos mark, latchCycleLate_eq]
    rfl
  · have sent : s.sched.markWaiting = false := Bool.eq_false_iff.2 mark
    rw [if_neg mark, if_neg mark, if_neg mark, ← sent]
    rfl

/-- R14: the report of a swap that is carried out. -/
def Scheduler.swapped (c : Scheduler) : List (ReportKind × List Byte) :=
  if c.swapPending then [(.swapDone, be32 (c.cycle + 1).toNat ++ [byteOf c.shadow.length])] else []

theorem carryOutSwap_eq (s : State) : carryOutSwap s = State.raising s.sched.swapped { s with sched := { s.sched with
    active := if s.sched.swapPending then s.sched.shadow else s.sched.active, swapPending := false } } := by
  unfold carryOutSwap Scheduler.swapped
  by_cases pending : s.sched.swapPending = true
  · rw [if_pos pending, if_pos pending, if_pos pending]
    rfl
  · have none : s.sched.swapPending = false := Bool.eq_false_iff.2 pending
    rw [if_neg pending, if_neg pending, if_neg pending, ← none]
    rfl

/-! ## The next cycle is opened (R16, R17, R23, R39) -/

theorem expireForeignByCycle_eq (s : State) : expireForeignByCycle s = { s with
    conds := { s.conds with foreign := { s.conds.foreign with active := s.conds.foreign.active && s.txn.seenThisCycle } }
    txn := { s.txn with seenThisCycle := false } } := by
  unfold expireForeignByCycle
  by_cases expires : (s.conds.foreign.active && !s.txn.seenThisCycle) = true
  · obtain ⟨active, unseen⟩ := Bool.and_eq_true_iff.1 expires
    have unseen : s.txn.seenThisCycle = false := by simpa using unseen
    rw [if_pos expires, unseen, Bool.and_false]
    rfl
  · have stands : (s.conds.foreign.active && s.txn.seenThisCycle) = s.conds.foreign.active := by
      cases active : s.conds.foreign.active <;> simp_all
    rw [if_neg expires, stands]
    rfl

/-- R23: the report of the skips of a cycle. -/
def SkipSummary.reported (ended : Word32) (m : SkipSummary) : List (ReportKind × List Byte) :=
  match m.first with
  | some x => [(.slotsSkipped, be32 ended.toNat ++ [byteOf m.count] ++ be16 x.offset ++ [skipReasonCode x.reason])]
  | none => []

theorem reportSkips_eq (ended : Word32) (s : State) : reportSkips ended s =
    State.raising (s.sched.summary.reported ended)
      { s with sched := { s.sched with summary := { count := 0, first := none, firstCue := none } } } := by
  unfold reportSkips SkipSummary.reported
  cases s.sched.summary.first with
  | none => rfl
  | some x =>
    refine Eq.trans (congrArg (fun u : State => u.setSched { u.sched with summary := .empty })
      (raiseReport_of (s := s) _ _ rfl rfl)) ?_
    refine Eq.symm ?_
    change raiseReport .slotsSkipped _ _ = _
    exact raiseReport_of (s := s) _ _ rfl rfl

/-! ## The boundary (R17) -/

/-- R17, R19, R21: the schedule once the ending cycle is closed. -/
def State.closedSched (s : State) : Scheduler := { s.sched with
  summary := (overrunSlots s).foldl (fun m x => m.plus { offset := x.offset, reason := .overrun, instant := s.now })
    (if s.sched.markWaiting then s.sched.summary.lateAsOverrun s.now else s.sched.summary)
  skipTotal := s.sched.skipTotal + BitVec.ofNat 32 (overrunSlots s).length
  markWaiting := false, waiting := [] }

/-- R16, R17: the schedule once the next cycle is open. -/
def State.openedSched (s : State) : Scheduler := { s.closedSched with
  cycle := s.sched.cycle + 1, cycleStart := s.boundaryAt
  active := if s.sched.swapPending then s.sched.shadow else s.sched.active
  swapPending := false, presented := [] }

/-- R19: the part with CYCLE_LATE as the boundary leaves it. -/
def State.closing (s : State) : State := { s with conds := { s.conds with cycleLate := s.lateAtBoundary } }

/-- R17, R19: the ending cycle is closed. -/
theorem closeCycle_eq (s : State) : dropMark (skipOverruns (overrunLate s)) = { s with
    sched := s.closedSched, reports := (s.closing.raising s.sched.lostMark).reports
    conds := (s.closing.raising s.sched.lostMark).conds } := by
  have skips : skipOverruns (overrunLate s) =
      { s with sched := { s.closedSched with markWaiting := s.sched.markWaiting } } := by
    rw [overrunLate_eq, skipOverruns_eq]
    rfl
  rw [skips, raising_conds]
  exact Eq.trans (dropMark_eq _) (raising_of (s := s.closing) s.sched.lostMark rfl rfl)

/-- R17 steps 1 and 2: the next cycle is opened. -/
theorem openCycle_eq (s : State) : openCycle (carryOutSwap (dropMark (skipOverruns (overrunLate s)))) = { s with
    sched := s.openedSched, reports := (s.closing.raising (s.sched.lostMark ++ s.sched.swapped)).reports
    conds := (s.closing.raising (s.sched.lostMark ++ s.sched.swapped)).conds } := by
  rw [closeCycle_eq, raising_append]
  have kept := raising_conds s.sched.swapped (s.closing.raising s.sched.lostMark)
  generalize s.closing.raising s.sched.lostMark = w at kept
  rw [kept]
  have carried := carryOutSwap_eq { s with sched := s.closedSched, reports := w.reports, conds := w.conds }
  exact congrArg openCycle (carried.trans (raising_of (s := w) s.sched.swapped rfl rfl))

/-- R17, R23, R39: the rest of the boundary, from the state with the next cycle open and the points aged. -/
theorem finishBoundary_eq (ended : Word32) (s : State) :
    let expired := expireForeignByCycle (s.setGap { s.gap with probesStarted := 0 })
    let told := reportSkips ended expired
    let foreign : Condition := { s.conds.foreign with active := s.conds.foreign.active && s.txn.seenThisCycle }
    told.setSched { told.sched with markWaiting := true } = { s with
      sched := { s.sched with summary := { count := 0, first := none, firstCue := none }, markWaiting := true }
      gap := { s.gap with probesStarted := 0 }
      txn := { s.txn with seenThisCycle := false }
      reports := (s.raising (s.sched.summary.reported ended)).reports
      conds := { (s.raising (s.sched.summary.reported ended)).conds with foreign := foreign } } := by
  intro expired told foreign
  have expiry : expired = { s with
      gap := { s.gap with probesStarted := 0 }
      txn := { s.txn with seenThisCycle := false }
      conds := { s.conds with foreign := foreign } } := expireForeignByCycle_eq _
  have skips : told = State.raising (s.sched.summary.reported ended)
      { expired with sched := { expired.sched with summary := { count := 0, first := none, firstCue := none } } } := by
    have kept : expired.sched = s.sched := by rw [expiry]
    rw [← kept]
    exact reportSkips_eq ended expired
  rw [expiry] at skips
  rw [skips, raising_conds]
  refine Eq.trans (congrArg (fun u : State => u.setSched { u.sched with markWaiting := true })
    (raising_of (s := s) _ ?_ ?_)) ?_
  · rfl
  · rfl
  · rfl

/-- R19: the skips of a cycle whose MARK never went out, as the statements give them. -/
theorem lateAsOverrun_eq (now : Nat) (m : SkipSummary) (o : Nat) (t : Nat) (h : m.first = some ⟨o, .late, t⟩) :
    m.lateAsOverrun now = { m with first :=
      ({ m with first := m.firstCue }.plus { offset := o, reason := .overrun, instant := now }).first } := by
  unfold SkipSummary.lateAsOverrun
  rw [h]
  cases m.firstCue with
  | none => simp only [SkipSummary.plus, firstSkip, if_true]
  | some y => simp only [SkipSummary.plus, firstSkip, eq_comm (a := now), if_true]

theorem lateAsOverrun_other {now : Nat} {m : SkipSummary} (h : ∀ x, m.first = some x → x.reason ≠ .late) :
    m.lateAsOverrun now = m := by
  unfold SkipSummary.lateAsOverrun
  split
  · rename_i x hx
    exact if_neg (h x hx)
  · rfl

/-- R17: what a boundary leaves, with the points aged at the state where the next cycle is open. -/
theorem crossBoundary_eq (hd : s.keysDistinct) :
    let opened : State := { s with
      sched := s.openedSched, reports := (s.closing.raising (s.sched.lostMark ++ s.sched.swapped)).reports
      conds := (s.closing.raising (s.sched.lostMark ++ s.sched.swapped)).conds }
    let skips := s.openedSched.summary.reported s.sched.cycle
    let foreign : Condition := { s.conds.foreign with active := s.conds.foreign.active && s.txn.seenThisCycle }
    ∃ u : State, PointsBecome Point.aged opened u ∧
      crossBoundary s = { s with
        sched := { s.openedSched with summary := { count := 0, first := none, firstCue := none }, markWaiting := true }
        points := s.points.map Point.aged
        gap := { s.gap with probesStarted := 0 }
        txn := { s.txn with seenThisCycle := false }
        lines := u.lines
        reports := (u.raising skips).reports
        conds := { (u.raising skips).conds with foreign := foreign } } := by
  intro opened skips foreign
  have become : PointsBecome Point.aged opened (agePoints opened) := changePoints_all (s := opened) hd fun _ => rfl
  refine ⟨agePoints opened, become, ?_⟩
  have ends : crossBoundary s = _ := Eq.trans (congrArg (fun o : State =>
      let aged := agePoints o
      let expired := expireForeignByCycle (aged.setGap { aged.gap with probesStarted := 0 })
      let told := reportSkips s.sched.cycle expired
      told.setSched { told.sched with markWaiting := true }) (openCycle_eq s))
    (finishBoundary_eq s.sched.cycle (agePoints opened))
  rw [ends]
  have rest := become.cache.rest
  have conds := become.raised.conds
  have points := become.points
  generalize agePoints opened = u at rest conds points
  have sched : u.sched = s.openedSched := by rw [rest]
  have txn : u.txn = s.txn := by rw [rest]
  have gap : u.gap = s.gap := by rw [rest]
  have seen : u.conds.foreign = s.conds.foreign := by
    rw [conds]
    have before := congrArg ConditionSet.foreign (raising_conds (s.sched.lostMark ++ s.sched.swapped) s.closing)
    exact before
  have frame : ∀ c tr g ps q cs, ({ u with sched := c, txn := tr, gap := g, points := ps, reports := q, conds := cs } : State) =
      { s with sched := c, txn := tr, gap := g, points := ps, reports := q, conds := cs, lines := u.lines } := fun _ _ _ _ _ _ => by
    rw [rest]
  refine (frame _ _ _ u.points _ _).trans ?_
  rw [sched, txn, gap, seen, points]

/-- Settles O41: the steps of a boundary, each with the reports it raises. -/
theorem boundaryOpensNextCycle : Obligations.BoundaryOpensNextCycle := by
  intro s hr run distinct
  extract_lets boundary now overrun before started closed aged raised was sighted conds
  have begun : started = if s.sched.markWaiting then before.lateAsOverrun now else before := by
    unfold started
    cases s.sched.markWaiting with
    | false => rfl
    | true =>
      cases first : before.first with
      | none => exact (lateAsOverrun_other fun x hx => by simp [first] at hx).symm
      | some x =>
        obtain ⟨o, r, t⟩ := x
        cases r with
        | late => exact (lateAsOverrun_eq now before o t first).symm
        | _ =>
          refine (lateAsOverrun_other fun x hx => ?_).symm
          cases first.symm.trans hx
          simp
  have summary : (s.reach boundary).openedSched.summary = closed := by
    unfold closed
    rw [begun]
    rfl
  obtain ⟨u, become, ends⟩ := crossBoundary_eq (s := s.reach boundary) distinct
  have taken : exec .boundary s = .next (if s.sched.mode = .run then crossBoundary (s.reach s.boundaryAt) else s) :=
    next_running hr
  refine ⟨crossBoundary (s.reach boundary), taken.trans (congrArg _ (if_pos run)), ?_, ?_, ?_, ?_⟩
  · rw [ends]
    rfl
  · have opens : RaisedExactly ((s.reach boundary).sched.lostMark ++ (s.reach boundary).sched.swapped) (s.reach boundary).closing _ :=
      ⟨rfl, raising_conds _ _⟩
    have told : RaisedExactly ((s.reach boundary).openedSched.summary.reported s.sched.cycle) u _ := ⟨rfl, raising_conds _ _⟩
    have all := (opens.trans (become.raised.congr rfl rfl rfl rfl)).trans told
    rw [summary] at all
    refine RaisedExactly.withForeign (c := conds.foreign) all ?_ ?_ ?_ ?_
    · rfl
    · rw [ends, summary]
      rfl
    · rfl
    · rw [ends, summary]
      rfl
  · exact become.cache.mirrors.congr rfl (by rw [ends])
  · exact become.follow.congr rfl rfl (by rw [ends]) (by rw [ends, become.points])

end Sys2Proof.Machine
end

section
/-! PROOFS. Edges of the INPUT lines (R146-R148). -/

-- One theorem after another: theorems checked side by side would each hold a thread.
set_option Elab.async false

namespace Sys2Proof.Machine

variable {s t u : State} {i : Fin 8} {l : InputLine} {v : Level}

theorem raising_lines (rs : List (ReportKind × List Byte)) (s : State) : (s.raising rs).lines = s.lines :=
  by
  rw [raising_of (s := s) rs rfl rfl]

theorem raising_now (rs : List (ReportKind × List Byte)) (s : State) : (s.raising rs).now = s.now :=
  by
  rw [raising_of (s := s) rs rfl rfl]

/-- R145, R146: an INPUT line's new record drives no pin. -/
theorem putLine_input (h : s.lines.records[i] = .input l) (m : InputLine) : putLine i (.input m) s =
    { s with lines := { records := s.lines.records.set i (.input m), pins := s.lines.pins } } := by
  have same : changeInput i (fun _ => m) s = putLine i (.input m) s := by
    unfold changeInput
    rw [h]
  rw [← same, changeInput_input (fun _ => m) h]

theorem edgeCounts_iff (e : EdgeSetting) (v : Level) :
    edgeCounts e (edgeTo v) = true ↔ e = .both ∨ e = if v = .high then EdgeSetting.rise else .fall := by
  cases e <;> cases v <;> decide

theorem edgeCode_edgeTo (v : Level) : edgeCode (edgeTo v) = if v = .high then 0 else 1 := by
  cases v <;> rfl

theorem triggered_eq (mode : Mode) (l : InputLine) :
    l.triggered mode = { l with pending := l.pending || decide (mode = .run ∧ l.binding ≠ none) } := by
  unfold InputLine.triggered
  by_cases bound : mode = .run ∧ l.binding ≠ none
  · rw [if_pos ⟨bound.1, Option.isSome_iff_ne_none.2 bound.2⟩, decide_eq_true bound, Bool.or_true]
  · rw [if_neg fun b => bound ⟨b.1, Option.isSome_iff_ne_none.1 b.2⟩, decide_eq_false bound, Bool.or_false]

/-- R146-R148: what the new filtered level of an INPUT line does. -/
theorem changeFiltered_eq (h : s.lines.records[i] = .input l) :
    let matching := l.edge = .both ∨ l.edge = if v = .high then EdgeSetting.rise else .fall
    changeFiltered i l v s = State.raising
      (if matching ∧ l.reportEdge = true then
        [(.lineEdge, [byteOf i.val, if v = .high then 0 else 1] ++ edgeStamp s)] else [])
      { s with lines :=
          { records := s.lines.records.set i (.input
              { l with
                filtered := v, differsSince := none
                edgeCount := if matching then l.edgeCount + 1 else l.edgeCount
                pending := l.pending || decide (matching ∧ s.sched.mode = .run ∧ l.binding ≠ none) })
            pins := s.lines.pins } } := by
  intro matching
  unfold changeFiltered
  by_cases counts : matching
  · have counted : edgeCounts l.edge (edgeTo v) = true := (edgeCounts_iff l.edge v).2 counts
    rw [if_pos counted, putLine_input h, edgeCode_edgeTo, if_pos counts]
    extract_lets edged told
    have raised : told = edged.raising (if matching ∧ l.reportEdge = true then
        [(.lineEdge, [byteOf i.val, if v = .high then 0 else 1] ++ edgeStamp s)] else []) := by
      unfold told
      by_cases report : l.reportEdge = true
      · rw [if_pos report, if_pos (show matching ∧ l.reportEdge = true from ⟨counts, report⟩)]
        rfl
      · rw [if_neg report, if_neg fun both => report both.2]
        rfl
    clear_value told
    subst raised
    generalize (if matching ∧ l.reportEdge = true then
        [(ReportKind.lineEdge, [byteOf i.val, if v = .high then 0 else 1] ++ edgeStamp s)] else []) = reports
    rw [raising_of (s := s) (t := edged) reports rfl rfl]
    have record : edged.lines.records[i] = .input
        { l with filtered := v, differsSince := none, edgeCount := l.edgeCount + 1 } :=
      (set_getElem_line _ i i _).trans (if_pos rfl)
    refine Eq.trans (changeInput_input _ record) ?_
    rw [triggered_eq]
    refine Eq.symm (Eq.trans (raising_of (s := s) reports rfl rfl) ?_)
    simp only [edged, Vector.set_set, counts, true_and]
  · have passes : ¬ edgeCounts l.edge (edgeTo v) = true := fun c => counts ((edgeCounts_iff l.edge v).1 c)
    rw [if_neg passes, if_neg fun both => counts both.1, if_neg counts, decide_eq_false fun both => counts both.1,
      Bool.or_false]
    exact putLine_input h _

theorem changeFiltered_line (h : s.lines.records[i] = .input l) :
    ∃ m : InputLine, (changeFiltered i l v s).lines.records[i] = .input m ∧ (changeFiltered i l v s).lines.pins = s.lines.pins ∧
      (changeFiltered i l v s).now = s.now ∧ m.filtered = v ∧ m.filter = l.filter := by
  rw [changeFiltered_eq h, raising_lines, raising_now]
  exact ⟨_, (set_getElem_line _ i i _).trans (if_pos rfl), rfl, rfl, rfl, rfl⟩

/-! ## What an INPUT line sees of its pin (R146) -/

theorem takeLasting_other (h : ∀ l, s.lines.records[i] ≠ .input l) : takeLasting i s = s := by
  unfold takeLasting
  split
  · rename_i l hl
    exact absurd hl (h l)
  · rfl

theorem seePin_other (h : ∀ l, s.lines.records[i] ≠ .input l) : seePin i v s = s := by
  unfold seePin
  split
  · rename_i l hl
    exact absurd hl (h l)
  · rfl

theorem seePin_input (h : s.lines.records[i] = .input l) : seePin i v s =
    if v = l.filtered then putLine i (.input { l with differsSince := none }) s
    else if l.filter = 0 then changeFiltered i l v s
    else putLine i (.input { l with differsSince := some s.now }) s := by
  unfold seePin
  rw [h]

theorem filterEnd_differs {since : Nat} (differs : v ≠ l.filtered) (h : l.differsSince = some since) :
    l.filterEnd v = some (since + l.filter * 1024) := by
  unfold InputLine.filterEnd
  rw [if_neg differs, h]
  rfl

/-- R146: a change that has lasted is taken when the pin changes again. -/
theorem takeLasting_lasted {since : Nat} (h : s.lines.records[i] = .input l) (differs : s.lines.pins[i] ≠ l.filtered)
    (waits : l.differsSince = some since) (lasted : since + l.filter * 1024 ≤ s.now) :
    takeLasting i s = changeFiltered i l s.lines.pins[i] s := by
  unfold takeLasting
  rw [h]
  dsimp only
  rw [filterEnd_differs differs waits]
  exact if_pos lasted

theorem exec_localLinePinChange_same (stays : v = s.lines.pins[i]) : exec (.localLinePinChange i v) s = .next s :=
  congrArg Host.Outcome.next (if_pos stays.symm)

/-- R146: a pin that changes out of reset. -/
theorem exec_localLinePinChange (hr : s.inReset = false) (changes : v ≠ s.lines.pins[i]) :
    exec (.localLinePinChange i v) s = .next (seePin i v (setPin i v (takeLasting i s))) := by
  have taken : unlessInReset (takeLasting i) s = takeLasting i s := by simp [unlessInReset, hr]
  have awake : (setPin i v (takeLasting i s)).inReset = false :=
    ((takeLasting_touches i s).same .inReset (by simp)).trans hr
  change Host.Outcome.next _ = _
  rw [if_neg (Ne.symm changes), taken]
  simp [unlessInReset, awake]

theorem exec_inputFilterExpired_ends {t : Nat} (hr : s.inReset = false) (h : s.lines.records[i] = .input l)
    (ends : l.filterEnd s.lines.pins[i] = some t) :
    exec (.inputFilterExpired i) s = .next (changeFiltered i l s.lines.pins[i] (s.reach t)) := by
  refine (next_running hr).trans ?_
  simp only [h, ends]

theorem exec_inputFilterExpired_none (hr : s.inReset = false) (h : s.lines.records[i] = .input l)
    (ends : l.filterEnd s.lines.pins[i] = none) : exec (.inputFilterExpired i) s = .next s := by
  refine (next_running hr).trans ?_
  simp only [h, ends]

theorem exec_inputFilterExpired_other (hr : s.inReset = false) (h : ∀ l, s.lines.records[i] ≠ .input l) :
    exec (.inputFilterExpired i) s = .next s := by
  refine (next_running hr).trans ?_
  split
  · rename_i l hl
    exact absurd hl (h l)
  · rfl

theorem filterEnd_none (h : l.differsSince = none) : l.filterEnd v = none := by
  unfold InputLine.filterEnd
  rw [h]
  exact ite_self none

/-- R146: of two levels other than a third, each is the other's. -/
theorem level_two {a b c : Level} (hab : a ≠ b) (hac : a ≠ c) : b = c := by
  cases a <;> cases b <;> cases c <;> simp_all

/-- Settles O51: a change of the filtered level is one happening, whichever event brings it. -/
theorem edgesAreFilteredCountedAndReported : Obligations.EdgesAreFilteredCountedAndReported := by
  refine ⟨fun i v s hr other => ⟨?_, exec_inputFilterExpired_other hr other⟩, fun i v s l hr h => ?_⟩
  · by_cases stays : v = s.lines.pins[i]
    · refine (exec_localLinePinChange_same stays).trans ?_
      rw [stays]
      simp
    · rw [exec_localLinePinChange hr stays, takeLasting_other other]
      exact congrArg _ (seePin_other other)
  · intro stamp counted
    refine ⟨exec_localLinePinChange_same, fun changes same short => ?_, fun since changes same waits lasted wait => ?_,
      fun changes differs wait => ?_, fun changes differs none => ?_, fun since waits differs => ?_, fun waits => ?_⟩
    · rw [exec_localLinePinChange hr changes, takeLasting_short h short, seePin_input (s := setPin i v s) h, if_pos same]
      exact congrArg _ (putLine_input (s := setPin i v s) h _)
    · have shown : s.lines.pins[i] ≠ l.filtered := fun h => changes (same.trans h.symm)
      have taken : changeFiltered i l s.lines.pins[i] s = counted s.lines.pins s.lines.pins[i] s.now := changeFiltered_eq h
      obtain ⟨m, record, pins, now, filtered, filter⟩ := changeFiltered_line (v := s.lines.pins[i]) h
      rw [taken] at record pins now
      rw [exec_localLinePinChange hr changes, takeLasting_lasted h shown waits lasted, taken]
      obtain ⟨t, keeps⟩ : ∃ t, counted s.lines.pins s.lines.pins[i] s.now = t := ⟨_, rfl⟩
      rw [keeps] at record pins now ⊢
      rw [seePin_input (s := setPin i v t) record, if_neg (by rw [filtered]; exact changes),
        if_neg (by rw [filter]; exact wait), putLine_input (s := setPin i v t) record]
      simp only [record, setPin, State.setLines, pins, now]
    · rw [exec_localLinePinChange hr changes, takeLasting_same h (level_two changes differs),
        seePin_input (s := setPin i v s) h, if_neg differs, if_neg wait]
      exact congrArg _ (putLine_input (s := setPin i v s) h _)
    · rw [exec_localLinePinChange hr changes, takeLasting_same h (level_two changes differs),
        seePin_input (s := setPin i v s) h, if_neg differs, if_pos none]
      exact congrArg _ (changeFiltered_eq (s := setPin i v s) h)
    · rw [exec_inputFilterExpired_ends hr h (filterEnd_differs differs waits)]
      exact congrArg _ (changeFiltered_eq (s := s.reach _) h)
    · exact exec_inputFilterExpired_none hr h (filterEnd_none waits)

end Sys2Proof.Machine
end

section
/-! PROOFS. The gap arbiter (R48, R89-R101). -/

-- One theorem after another: theorems checked side by side would each hold a thread.
set_option Elab.async false

namespace Sys2Proof.Machine

variable {s t u : State}

/-! ## The opportunity, the horizon and the test of fit (R41, R90-R92) -/

theorem opportunity_iff (s : State) : s.opportunity = true ↔
    s.sched.mode = .run ∧ s.txn.record = none ∧ s.seg.activity = .quiet ∧
      max s.seg.lastTransition s.seg.lastEndDelimiter + s.bits 8 ≤ s.now ∧ s.seg.babbleFault = false ∧
      s.sched.markWaiting = false ∧ s.sched.waiting = [] := by
  simp only [State.opportunity, Bool.and_eq_true, beq_iff_eq, s.linePermits_iff, Bool.not_eq_true', List.isEmpty_iff]
  constructor
  · rintro ⟨⟨⟨run, idle, quiet, passed, fault⟩, mark⟩, waiting⟩
    exact ⟨run, idle, quiet, passed, fault, mark, waiting⟩
  · rintro ⟨run, idle, quiet, passed, fault, mark, waiting⟩
    exact ⟨⟨⟨run, idle, quiet, passed, fault⟩, mark⟩, waiting⟩

/-- R91: in ascending order the first that counts is the least. -/
theorem foldr_min_filter {α : Type} (p : α → Bool) (f : α → Nat) (b : Nat) {xs : List α}
    (ascending : xs.Pairwise fun x y => f x < f y) :
    ((xs.filter p).map f).foldr min b = ((xs.find? p).map fun x => min (f x) b).getD b := by
  induction xs with
  | nil => rfl
  | cons x xs ih =>
    obtain ⟨least, ascending⟩ := List.pairwise_cons.1 ascending
    cases hx : p x with
    | false => simpa [hx] using ih ascending
    | true =>
      rw [List.filter_cons_of_pos hx, List.map_cons, List.foldr_cons, ih ascending, List.find?_cons_of_pos hx]
      cases found : xs.find? p with
      | none => rfl
      | some y =>
        have later := least y (List.mem_of_find?_eq_some found)
        simp only [Option.map_some, Option.getD_some]
        omega

theorem slotAhead_eq (s : State) (x : Slot) : slotAhead s x = decide (s.sched.cycle.toNat % x.divisor = x.phase ∧
    (s.now < s.sched.cycleStart + x.offset * 1024 ∨ x.offset ∉ s.sched.presented)) := by
  rw [Bool.eq_iff_iff, decide_eq_true_iff]
  simp only [slotAhead, Slot.due, State.nominalAt, Config.tickClocks, Bool.and_eq_true, Bool.or_eq_true, beq_iff_eq,
    Bool.not_eq_true', List.contains_eq_mem, decide_eq_false_iff_not]
  exact and_congr_right fun _ => or_congr_left decide_eq_true_iff

theorem horizon_eq (ascending : (s.sched.active.map (·.offset)).Pairwise (· < ·)) :
    s.horizon = ((s.sched.active.filter (slotAhead s)).map fun x => s.nominalAt x.offset).foldr min s.boundaryAt := by
  have nominals : s.sched.active.Pairwise fun x y => s.nominalAt x.offset < s.nominalAt y.offset :=
    (List.pairwise_map.1 ascending).imp fun h => by
      simp only [State.nominalAt, Config.tickClocks]
      omega
  rw [foldr_min_filter _ _ _ nominals, State.horizon]
  cases s.sched.active.find? (slotAhead s) <;> rfl

theorem fits_iff (a b : Nat) : s.fits a b = true ↔
    (worstBits s.sched.params.window a b + bitsPerTick s.sched.params.rate - 1) / bitsPerTick s.sched.params.rate ≤
      (s.horizon - s.now) / 1024 := by
  unfold State.fits bitsToTicks ticksBetween
  rw [decide_eq_true_iff, Config.tickClocks]
  cases s.sched.params.rate <;> rfl

/-! ## The messages the queue offers (R95, R103) -/

/-- R95: the message that is offered, with those before and behind it. -/
theorem offeredMessage_of {pre post : List Message} {m : Message} (h : s.offers pre m post) :
    offeredMessage m.cls s = some m := by
  obtain ⟨held, inFlight | queued⟩ := h
  · obtain ⟨state, off, before⟩ := inFlight
    have found : s.outbound.find? (·.state == .inFlight) = some m := by
      rw [held]
      refine List.find?_eq_some_iff_append.2 ⟨by simp [state], pre, post, rfl, fun x hx => by simp [before x hx]⟩
    simp [offeredMessage, found, off]
  · obtain ⟨all, before⟩ := queued
    have none : s.outbound.find? (·.state == .inFlight) = none := List.find?_eq_none.2 fun x hx => by simp [all x hx]
    have mine : m.state = .queued := all m (by simp [held])
    unfold offeredMessage
    rw [none]
    dsimp only
    rw [held]
    refine List.find?_eq_some_iff_append.2 ⟨by simp [mine], pre, post, rfl, fun x hx => by simp [before x hx]⟩

theorem offers_of {c : MessageClass} {m : Message} (h : offeredMessage c s = some m) :
    m.cls = c ∧ ∃ pre post, s.offers pre m post := by
  have queued : ∀ x : Message, x.state ≠ .inFlight → x.state = .queued := fun x => by cases x.state <;> simp
  unfold offeredMessage at h
  cases found : s.outbound.find? (·.state == .inFlight) with
  | some x =>
    rw [found] at h
    obtain ⟨⟨cls, off⟩, same⟩ := Option.ite_none_right_eq_some.1 h
    cases same
    obtain ⟨state, pre, post, held, before⟩ := List.find?_eq_some_iff_append.1 found
    exact ⟨cls, pre, post, held, .inl ⟨by simpa using state, by simpa using off,
      fun x hx => queued x (by simpa using before x hx)⟩⟩
  | none =>
    rw [found] at h
    have all : ∀ x ∈ s.outbound, x.state = .queued := fun x hx =>
      queued x (by simpa using List.find?_eq_none.1 found x hx)
    obtain ⟨mine, pre, post, held, before⟩ := List.find?_eq_some_iff_append.1 h
    have mine : m.state = .queued ∧ m.cls = c := by simpa using mine
    refine ⟨mine.2, pre, post, held, .inr ⟨all, fun x hx cls => ?_⟩⟩
    have state := all x (by simp [held, hx])
    simpa [state, cls, mine.2] using before x hx

/-! ## What each candidate leads to (R94-R98) -/

/-- R107: an attempt of one message begins, the others staying as they are. -/
theorem attempted_held {pre post : List Message} {m : Message} (hd : s.tagsDistinct) (held : s.outbound = pre ++ m :: post) :
    s.outbound.map (fun x => if x.tag = m.tag then x.attempted else x) = pre ++ m.attempted :: post := by
  rw [State.tagsDistinct, held, List.map_append, List.map_cons] at hd
  have apart : ∀ x ∈ pre ++ post, x.tag ≠ m.tag := fun x hx same => by
    have moved := List.nodup_middle.1 hd
    rw [← List.map_append] at moved
    exact (List.nodup_cons.1 moved).1 (same ▸ List.mem_map_of_mem hx)
  have stays : ∀ xs : List Message, (∀ x ∈ xs, x.tag ≠ m.tag) →
      xs.map (fun x => if x.tag = m.tag then x.attempted else x) = xs := fun xs hx =>
    (List.map_congr_left fun x h => if_neg (hx x h)).trans (List.map_id' xs)
  rw [held, List.map_append, List.map_cons, if_pos rfl, stays pre fun x hx => apart x (List.mem_append_left _ hx),
    stays post fun x hx => apart x (List.mem_append_right _ hx)]

theorem considerMessage_fits {pre post : List Message} {m : Message} (hd : s.tagsDistinct) (h : s.offers pre m post)
    (fits : s.fits (3 + m.payload.length) 51 = true) : considerMessage m.cls s = .started (handOver (.outbound m.tag) .send
      m.destination (sendBody m.destination m.tag m.payload) (some (.reply m.destination m.tag)) { s with
        outbound := pre ++ m.attempted :: post
        gap := { s.gap with alternation := afterSend m.cls s.gap.alternation } }) := by
  unfold considerMessage
  rw [offeredMessage_of h]
  dsimp only
  rw [if_pos fits, startSend, changeMessage, attempted_held hd h.1]
  rfl

theorem considerMessage_passed {c : MessageClass} (h : s.messagePassed c) : considerMessage c s = .passed s := by
  unfold considerMessage
  cases offered : offeredMessage c s with
  | none => rfl
  | some m =>
    obtain ⟨cls, pre, post, offers⟩ := offers_of offered
    exact if_neg (by simp [h pre m post offers cls])

theorem considerFetch_fits {a : Nat} {rest : List Nat} (head : s.attention = a :: rest) (place : s.canReserve = true)
    (fits : s.fits 2 50 = true) : considerFetch s = .started (startFetch a rest s) := by
  simp [considerFetch, head, place, fits]

theorem considerFetch_passed (h : s.fetchPassed) : considerFetch s = .passed s := by
  unfold considerFetch
  split
  · rename_i head
    refine if_neg ?_
    rcases h with none | full | long
    · simp [none] at head
    · simp [full]
    · simp [long]
  · rfl

theorem considerRoll_fits {a : Nat} (candidate : s.probeCandidate = some a)
    (left : s.gap.probesStarted < s.sched.params.probes) (fits : s.fits 2 10 = true) :
    considerRoll s = .started (startRoll a s) := by
  simp [considerRoll, candidate, left, fits]

theorem considerRoll_passed (h : s.probeCandidate = none ∨ s.sched.params.probes ≤ s.gap.probesStarted ∨ s.fits 2 10 = false) :
    considerRoll s = .passed s := by
  unfold considerRoll
  split
  · rename_i candidate
    refine if_neg ?_
    rcases h with none | spent | long
    · simp [none] at candidate
    · simp [Nat.not_lt.2 spent]
    · simp [long]
  · rfl

/-! ## The triggers in their order (R94) -/

theorem considerTrigger_passed {i : Fin 8} (h : s.triggerPassed i) : considerTrigger i s = .passed s := by
  unfold considerTrigger
  split
  · rename_i l hl
    split
    · rename_i k hk
      by_cases pending : l.pending = true
      · obtain ⟨active, long⟩ := h l hl pending k hk
        rw [if_neg (by simp [pending]), if_neg (by simp [active])]
        split
        · rename_i p hp
          exact if_neg (by simp [long p hp])
        · rfl
      · exact if_pos (by simpa using pending)
    · rfl
  · rfl

theorem considerTrigger_starts {i : Fin 8} {l : InputLine} {k : Key} {p : Point} (hl : s.lines.records[i] = .input l)
    (pending : l.pending = true) (hk : l.binding = some k) (active : s.stationActive k.address = true)
    (hp : s.point k = some p) (fits : s.fits 3 (4 + p.length) = true) :
    considerTrigger i s = .started (startTrigger i k s) := by
  simp [considerTrigger, hl, pending, hk, active, hp, fits]

theorem considerTrigger_absent {i : Fin 8} {l : InputLine} {k : Key} (hl : s.lines.records[i] = .input l)
    (pending : l.pending = true) (hk : l.binding = some k) (absent : s.stationActive k.address = false) :
    considerTrigger i s = .passed (dropTrigger i k .absent s) := by
  simp [considerTrigger, hl, pending, hk, absent]

/-- R93, R94: some lines' triggers are considered in turn, after what has gone before. -/
def GapResult.through (r : GapResult) (xs : List (Fin 8)) : GapResult :=
  xs.foldl (fun r i => r.orNext (considerTrigger i)) r

theorem considerTriggers_eq (s : State) : considerTriggers s = (GapResult.passed s).through allLines := rfl

/-- R93: once one has started, the rest are not considered. -/
theorem through_started (xs : List (Fin 8)) (s : State) : (GapResult.started s).through xs = .started s := by
  induction xs with
  | nil => rfl
  | cons x xs ih => exact ih

/-- R94: triggers that are passed leave the consideration to those behind them. -/
theorem through_passed {xs : List (Fin 8)} (h : ∀ i ∈ xs, s.triggerPassed i) :
    (GapResult.passed s).through xs = .passed s := by
  induction xs with
  | nil => rfl
  | cons x xs ih =>
    have here : (GapResult.passed s).orNext (considerTrigger x) = .passed s := considerTrigger_passed (h x List.mem_cons_self)
    rw [GapResult.through, List.foldl_cons, here]
    exact ih fun i hi => h i (List.mem_cons_of_mem x hi)

/-- R94: the lines before one line, in ascending order. -/
theorem allLines_split (i : Fin 8) : ∃ pre post, allLines = pre ++ i :: post ∧ ∀ j ∈ pre, j < i := by
  refine ⟨allLines.take i, allLines.drop (i + 1), ?_, ?_⟩ <;> fin_cases i <;> decide

/-- R94: the first trigger that is not passed decides, and then the lines behind it. -/
theorem considerTriggers_from (i : Fin 8) : ∃ post : List (Fin 8), ∀ t : State, (∀ j < i, t.triggerPassed j) →
    considerTriggers t = (considerTrigger i t).through post := by
  obtain ⟨pre, post, split, lower⟩ := allLines_split i
  refine ⟨post, fun t before => ?_⟩
  have passed : (GapResult.passed t).through pre = .passed t := through_passed fun j hj => before j (lower j hj)
  rw [considerTriggers_eq, split, GapResult.through, List.foldl_append]
  exact congrArg (fun r : GapResult => (r.orNext (considerTrigger i)).through post) passed

theorem considerTriggers_passed (h : ∀ i, s.triggerPassed i) : considerTriggers s = .passed s :=
  through_passed fun i _ => h i

/-! ## The consideration (R93) -/

theorem exec_gapConsideration (hr : s.inReset = false) (h : s.opportunity = true) :
    exec .gapConsideration s = .next (consider s).state :=
  (next_running hr).trans (congrArg _ (if_pos h))

theorem dropTrigger_eq {i : Fin 8} {l : InputLine} (hl : s.lines.records[i] = .input l) (k : Key) (r : DropReason) :
    dropTrigger i k r s = State.raising [(.triggerDropped, [byteOf i.val, byteOf k.address, byteOf k.number, dropReasonCode r])]
      { s with lines := { s.lines with records := s.lines.records.set i (.input { l with pending := false }) } } := by
  rw [dropTrigger, changeInput_input _ hl]
  rfl

/-- R94: a pending trigger of a station that is not ACTIVE is dropped on the way. -/
theorem exec_gapConsideration_absent {i : Fin 8} {l : InputLine} {k : Key} (hr : s.inReset = false)
    (chance : s.opportunity = true) (before : ∀ j < i, s.triggerPassed j) (hl : s.lines.records[i] = .input l)
    (pending : l.pending = true) (hk : l.binding = some k) (absent : s.stationActive k.address = false) :
    exec .gapConsideration s = exec .gapConsideration (dropTrigger i k .absent s) := by
  obtain ⟨post, from_⟩ := considerTriggers_from i
  have first := considerTrigger_absent hl pending hk absent
  have drop := (dropTrigger_eq hl k .absent).trans (raising_of (s := s) _ rfl rfl)
  generalize dropTrigger i k .absent s = t at first drop ⊢
  have records : ∀ j, t.lines.records[j] = if j = i then .input { l with pending := false } else s.lines.records[j] :=
    fun j => by
      rw [drop]
      exact set_getElem_line _ i j _
  have tests : t.inReset = s.inReset ∧ t.opportunity = s.opportunity ∧ t.stationActive = s.stationActive ∧
      t.point = s.point ∧ t.fits = s.fits := by
    rw [drop]
    exact ⟨rfl, rfl, rfl, rfl, rfl⟩
  obtain ⟨reset, chances, stations, points, fits⟩ := tests
  have passes : ∀ j < i, t.triggerPassed j := fun j lower => by
    unfold State.triggerPassed
    rw [records j, if_neg (Fin.ne_of_lt lower), stations, points, fits]
    exact before j lower
  have here : t.triggerPassed i := fun m hm on => by
    rw [records i, if_pos rfl] at hm
    cases hm
    cases on
  rw [exec_gapConsideration hr chance, exec_gapConsideration (reset.trans hr) (chances.trans chance), consider, consider,
    from_ s before, from_ t passes, first, considerTrigger_passed here]

/-- R97: what starts at positions 3 and 4. -/
theorem considerAlternating_message {pre post : List Message} {m : Message} (hd : s.tagsDistinct) (h : s.offers pre m post)
    (cls : m.cls = .normal) (fits : s.fits (3 + m.payload.length) 51 = true)
    (turn : s.gap.alternation = .normal ∨ s.fetchPassed) : considerAlternating s = considerMessage .normal s := by
  have starts := considerMessage_fits hd h fits
  rw [cls] at starts
  unfold considerAlternating
  cases turns : s.gap.alternation with
  | normal => rw [starts]; rfl
  | fetch =>
    have passed : s.fetchPassed := turn.resolve_left (by simp [turns])
    rw [considerFetch_passed passed]
    rfl

theorem considerAlternating_fetch {a : Nat} {rest : List Nat} (head : s.attention = a :: rest) (place : s.canReserve = true)
    (fits : s.fits 2 50 = true) (turn : s.gap.alternation = .fetch ∨ s.messagePassed .normal) :
    considerAlternating s = .started (startFetch a rest s) := by
  have starts := considerFetch_fits head place fits
  unfold considerAlternating
  cases turns : s.gap.alternation with
  | fetch => rw [starts]; rfl
  | normal =>
    have passed : s.messagePassed .normal := turn.resolve_left (by simp [turns])
    rw [considerMessage_passed passed]
    exact starts

theorem considerAlternating_passed (message : s.messagePassed .normal) (fetch : s.fetchPassed) :
    considerAlternating s = .passed s := by
  unfold considerAlternating
  cases s.gap.alternation with
  | fetch =>
    rw [considerFetch_passed fetch]
    exact considerMessage_passed message
  | normal =>
    rw [considerMessage_passed message]
    exact considerFetch_passed fetch

/-- Settles O50: the candidates in their order, each passed over or started. -/
theorem gapStartsFirstCandidate : Obligations.GapStartsFirstCandidate := by
  intro s hr record send begun nominal ahead
  refine ⟨opportunity_iff s, fun ascending => ?_, fun a b => ?_, fun low high => ⟨fun a => ?_, ?_⟩, fun none => ?_,
    fun i l k chance before hl pending hk => ⟨fun p active hp fits => ?_, fun absent => ?_⟩, fun chance triggers hd => ?_⟩
  · rw [horizon_eq ascending]
    refine congrArg (fun xs : List Slot => (xs.map nominal).foldr min (s.sched.cycleStart + s.sched.params.period * 1024))
      (List.filter_congr fun x _ => ?_)
    exact slotAhead_eq s x
  · exact fits_iff a b
  · exact State.probeCandidate_eq_some_iff low high
  · exact State.probeCandidate_eq_none_iff low high
  · exact (next_running hr).trans (congrArg _ (if_neg (by simp [none])))
  · obtain ⟨post, from_⟩ := considerTriggers_from i
    rw [exec_gapConsideration hr chance, consider, from_ s before, considerTrigger_starts hl pending hk active hp fits,
      through_started]
    refine congrArg Host.Outcome.next ?_
    change startTrigger i k s = _
    rw [startTrigger, changeInput_input _ hl]
    rfl
  · refine (exec_gapConsideration_absent hr chance before hl pending hk absent).trans ?_
    rw [dropTrigger_eq hl k .absent]
    rfl
  · have considered : exec .gapConsideration s = .next (((considerMessage .urgent s).orNext considerAlternating).orNext
        considerRoll).state := by
      rw [exec_gapConsideration hr chance, consider, considerTriggers_passed triggers]
      rfl
    refine ⟨fun pre m post offers cls fits => ?_, fun urgent => ?_⟩
    · have starts := considerMessage_fits hd offers fits
      rw [cls] at starts
      rw [considered, starts]
      rfl
    · rw [considered, considerMessage_passed urgent]
      refine ⟨fun pre m post offers cls fits turn => ?_, fun a rest head place fits turn => ?_, fun normal fetch => ?_⟩
      · have starts := considerMessage_fits hd offers fits
        have placed := considerAlternating_message hd offers cls fits turn
        rw [cls] at starts
        refine congrArg (fun r : GapResult => Host.Outcome.next (r.orNext considerRoll).state) (placed.trans starts)
      · exact congrArg (fun r : GapResult => Host.Outcome.next (r.orNext considerRoll).state)
          (considerAlternating_fetch head place fits turn)
      · have placed : ((GapResult.passed s).orNext considerAlternating).orNext considerRoll = considerRoll s :=
          congrArg (fun r : GapResult => r.orNext considerRoll) (considerAlternating_passed normal fetch)
        rw [placed]
        refine ⟨fun a candidate left fits => ?_, fun none => ?_⟩
        · rw [considerRoll_fits candidate left fits]
          rfl
        · rw [considerRoll_passed none]
          rfl

end Sys2Proof.Machine
end

section
/-! PROOFS. The receiver reads runs of symbols (R157-R164). -/

-- One theorem after another: theorems checked side by side would each hold a thread.
set_option Elab.async false

namespace Sys2Proof.Machine

variable {s t u : State} {f : FrameInProgress} {inv : Bool} {bit : Nat}

/-! ## Symbols in either polarity, and the frame that has been read of (R157, R160) -/

/-- R157: one symbol as a pair of conductors gives it. -/
def seenAs (inv : Bool) (x : Symbol) : Symbol := if inv then symbolInverse x else x

theorem polarised_eq (inv : Bool) (xs : List Symbol) : polarised inv xs = xs.map (seenAs inv) := by
  cases inv
  · exact (List.map_id' xs).symm
  · rfl

theorem polarised_append (inv : Bool) (xs ys : List Symbol) :
    polarised inv (xs ++ ys) = polarised inv xs ++ polarised inv ys := by
  simp only [polarised_eq, List.map_append]

theorem polarised_length (inv : Bool) (xs : List Symbol) : (polarised inv xs).length = xs.length := by
  simp only [polarised_eq, List.length_map]

theorem symbolBit_seenAs (inv b : Bool) : symbolBit (seenAs inv (symbolOfBit b)) = some (b != inv) := by
  cases inv <;> cases b <;> rfl

theorem afterSymbols_append (f : FrameInProgress) (bit : Nat) (xs ys : List Symbol) :
    f.afterSymbols bit (xs ++ ys) = (f.afterSymbols bit xs).afterSymbols bit ys := List.foldl_append

/-- R160: what reading symbols leaves of a frame's marks. -/
theorem afterSymbols_marks (f : FrameInProgress) (bit : Nat) (xs : List Symbol) :
    (f.afterSymbols bit xs).count = f.count + xs.length ∧ (f.afterSymbols bit xs).start = f.start ∧
      (f.afterSymbols bit xs).echo = f.echo := by
  induction xs generalizing f with
  | nil => exact ⟨rfl, rfl, rfl⟩
  | cons x xs ih =>
    obtain ⟨count, start, echo⟩ := ih (f.afterSymbol bit x)
    refine ⟨?_, start, echo⟩
    exact count.trans (by simp only [afterSymbol_count, List.length_cons]; omega)

/-- R161-R163: a run read up to its last symbol, and then that. -/
theorem readSymbols_concat {r : Receiver} {r' : Receiver} {xs : List Symbol} (h : readSymbols bit r xs = .reading r')
    (ys : List Symbol) : readSymbols bit r (xs ++ ys) = readSymbols bit r' ys := by
  rw [readSymbols_append, h]

theorem readSymbols_verdict {r : Receiver} {x : Symbol} {g : FrameInProgress} {v : Verdict}
    (h : readSymbol bit r x = .verdict g v) : readSymbols bit r [x] = .verdict g v true := by
  rw [readSymbols_cons, h]
  rfl

/-! ## Bytes in BODY (R163) -/

/-- R158: the bits of a byte in the order of the line. -/
def bitsOf (b : Byte) : List Bool := [0, 1, 2, 3, 4, 5, 6, 7].map b.getLsbD

theorem byteSymbols_eq (b : Byte) : byteSymbols b = (bitsOf b).map symbolOfBit := rfl

/-- R163: the value of a run of bits, the least significant first, has those bits. -/
theorem testBit_foldr (bits : List Bool) (i : Nat) :
    (bits.foldr (fun (b : Bool) acc => acc * 2 + b.toNat) 0).testBit i = bits.getD i false := by
  induction bits generalizing i with
  | nil => simp
  | cons b bits ih =>
    cases i with
    | zero => cases b <;> simp [Nat.testBit_zero]
    | succ i =>
      rw [List.foldr_cons, Nat.testBit_succ, List.getD_cons_succ, ← ih i]
      congr 1
      have := Bool.toNat_le b
      omega

theorem byteOfBits_bitsOf (b : Byte) : byteOfBits (bitsOf b) = b := by
  refine BitVec.eq_of_getLsbD_eq fun i hi => ?_
  rw [byteOfBits, byteOf, BitVec.getLsbD_ofNat, testBit_foldr, decide_eq_true hi, Bool.true_and]
  interval_cases i <;> rfl

theorem readBodyBit_seen {bytes : List Byte} {bits : List Bool} (b : Bool) :
    readSymbol bit (.body f inv bytes bits []) (seenAs inv (symbolOfBit b)) =
      readBodyBit (f.afterSymbol bit (seenAs inv (symbolOfBit b))) inv bytes bits (b != inv) := by
  cases inv <;> cases b <;> rfl

theorem readBodyBit_short {bytes : List Byte} {bits : List Bool} (b : Bool) (short : bits.length < 7) :
    readBodyBit f inv bytes bits (b != inv) = .reading (.body f inv bytes (bits ++ [b]) []) := by
  have bit : ((b != inv) != inv) = b := by cases b <;> cases inv <;> rfl
  unfold readBodyBit
  rw [bit]
  exact if_neg (by simp only [List.length_append, List.length_singleton]; omega)

/-- R163: the eighth bit makes a byte, and the 67th byte is one too many. -/
theorem readBodyBit_byte {bytes : List Byte} {bits : List Bool} (b : Bool) (full : bits.length = 7) :
    readBodyBit f inv bytes bits (b != inv) = if bytes.length = 66 then .verdict f .tooLong
      else .reading (.body f inv (bytes ++ [byteOfBits (bits ++ [b])]) [] []) := by
  have bit : ((b != inv) != inv) = b := by cases b <;> cases inv <;> rfl
  unfold readBodyBit
  rw [bit]
  dsimp only
  rw [if_pos (by simp only [List.length_append, List.length_singleton, full])]
  exact if_congr (by simp only [List.length_append, List.length_singleton]; omega) rfl rfl

/-- R163: a byte that is not complete yet. -/
theorem read_bits {bytes : List Byte} {bits ys : List Bool} (short : bits.length + ys.length ≤ 7) :
    readSymbols bit (.body f inv bytes bits []) (polarised inv (ys.map symbolOfBit)) =
      .reading (.body (f.afterSymbols bit (polarised inv (ys.map symbolOfBit))) inv bytes (bits ++ ys) []) := by
  rw [polarised_eq]
  induction ys generalizing f bits with
  | nil => simp [FrameInProgress.afterSymbols]
  | cons y ys ih =>
    rw [List.length_cons] at short
    rw [List.map_cons, List.map_cons, readSymbols_cons, readBodyBit_seen, readBodyBit_short y (by omega)]
    refine (ih (by simp only [List.length_append, List.length_singleton]; omega)).trans ?_
    rw [List.append_assoc]
    rfl

/-- R163: seven bits of a byte, and the eighth. -/
theorem byteSymbols_split (b : Byte) : byteSymbols b =
    ([0, 1, 2, 3, 4, 5, 6].map b.getLsbD).map symbolOfBit ++ [symbolOfBit (b.getLsbD 7)] := rfl

theorem read_byte {bytes : List Byte} (b : Byte) :
    readSymbols bit (.body f inv bytes [] []) (polarised inv (byteSymbols b)) =
      if bytes.length = 66 then .verdict (f.afterSymbols bit (polarised inv (byteSymbols b))) .tooLong true
      else .reading (.body (f.afterSymbols bit (polarised inv (byteSymbols b))) inv (bytes ++ [b]) [] []) := by
  rw [byteSymbols_split, polarised_append, readSymbols_concat (read_bits (by simp)), afterSymbols_append]
  generalize f.afterSymbols bit _ = g
  have last : polarised inv [symbolOfBit (b.getLsbD 7)] = [seenAs inv (symbolOfBit (b.getLsbD 7))] := polarised_eq inv _
  rw [last, readSymbols_cons, readBodyBit_seen, readBodyBit_byte _ (by simp)]
  have value : byteOfBits ([] ++ [0, 1, 2, 3, 4, 5, 6].map b.getLsbD ++ [b.getLsbD 7]) = b := byteOfBits_bitsOf b
  rw [value]
  by_cases full : bytes.length = 66
  · rw [if_pos full, if_pos full]
    rfl
  · rw [if_neg full, if_neg full]
    rfl

/-- R163: whole bytes, up to 66 of them. -/
theorem read_bytes {bytes bs : List Byte} (room : bytes.length + bs.length ≤ 66) :
    readSymbols bit (.body f inv bytes [] []) (polarised inv (bs.flatMap byteSymbols)) =
      .reading (.body (f.afterSymbols bit (polarised inv (bs.flatMap byteSymbols))) inv (bytes ++ bs) [] []) := by
  induction bs generalizing f bytes with
  | nil => simp [polarised_eq, FrameInProgress.afterSymbols]
  | cons b bs ih =>
    rw [List.length_cons] at room
    have here := read_byte (f := f) (inv := inv) (bit := bit) (bytes := bytes) b
    rw [if_neg (by omega)] at here
    rw [List.flatMap_cons, polarised_append, readSymbols_concat here,
      ih (by simp only [List.length_append, List.length_singleton]; omega), afterSymbols_append, List.append_assoc]
    rfl

/-- R163: the 67th byte. -/
theorem read_tooLong {bs : List Byte} (long : bs.length = 67) :
    readSymbols bit (.body f inv [] [] []) (polarised inv (bs.flatMap byteSymbols)) =
      .verdict (f.afterSymbols bit (polarised inv (bs.flatMap byteSymbols))) .tooLong true := by
  obtain ⟨b, ys, rfl⟩ : ∃ b ys, bs = ys ++ [b] := by
    refine ⟨bs.getLast (List.ne_nil_of_length_eq_add_one long), bs.dropLast, ?_⟩
    exact (List.dropLast_append_getLast _).symm
  have short : ys.length = 66 := by simpa using long
  rw [List.flatMap_append, polarised_append, readSymbols_concat (read_bytes (by simp [short])), afterSymbols_append,
    List.flatMap_singleton, read_byte, if_pos (by simpa using short)]

/-! ## The end of a frame (R163, R164) -/

theorem read_end {bytes : List Byte} :
    readSymbols bit (.body f inv bytes [] []) (polarised inv endDelimiter) =
      .verdict (f.afterSymbols bit (polarised inv endDelimiter)) (closingVerdict inv bytes) true := by
  cases inv <;> rfl

/-- R164: bytes and an end delimiter are judged in CLOSING. -/
theorem read_closed {bs : List Byte} (room : bs.length ≤ 66) :
    readSymbols bit (.body f inv [] [] []) (polarised inv (bs.flatMap byteSymbols ++ endDelimiter)) =
      .verdict (f.afterSymbols bit (polarised inv (bs.flatMap byteSymbols ++ endDelimiter))) (closingVerdict inv bs) true := by
  rw [polarised_append, readSymbols_concat (read_bytes (by simpa using room)), afterSymbols_append]
  exact read_end

/-- R159, R164: a body with its check is GOOD. -/
theorem closingVerdict_good {body : List Byte} (h : 2 ≤ body.length) :
    closingVerdict inv (body ++ crcBytes body) = .good body inv := by
  have check : (crcBytes body).length = 2 := rfl
  unfold closingVerdict
  rw [if_neg (by rw [List.length_append, check]; omega), if_pos (crcSound_crcBytes body), List.length_append, check]
  simp

theorem closingVerdict_unsound {bs : List Byte} (h : bs.length < 4 ∨ crcSound bs = false) :
    closingVerdict inv bs = if bs.length < 4 then .runt else .checkError := by
  unfold closingVerdict
  split
  · rfl
  · rename_i long
    rw [if_neg (by simp [h.resolve_left long])]

/-- R164: a whole sound body with its check and end delimiter. -/
theorem read_good {body : List Byte} (low : 2 ≤ body.length) (high : body.length ≤ 64) :
    readSymbols bit (.body f inv [] [] []) (polarised inv (bodySymbols body)) =
      .verdict (f.afterSymbols bit (polarised inv (bodySymbols body))) (.good body inv) true := by
  have check : (crcBytes body).length = 2 := rfl
  rw [bodySymbols, read_closed (by rw [List.length_append, check]; omega), closingVerdict_good low]

/-! ## Broken frames (R163) -/

/-- R163: a symbol that is no data symbol within a byte, or one that no end delimiter begins with. -/
theorem read_brokenByte {bs : List Byte} (b : Byte) {k : Nat} {x : Symbol} (room : bs.length ≤ 66) (short : k ≤ 7)
    (hx : x = .vPlus ∨ k ≠ 0 ∧ x = .vMinus) :
    let xs := bs.flatMap byteSymbols ++ (byteSymbols b).take k ++ [x]
    readSymbols bit (.body f inv [] [] []) (polarised inv xs) =
      .verdict (f.afterSymbols bit (polarised inv xs)) .broken true := by
  intro xs
  have bits : (byteSymbols b).take k = ((bitsOf b).take k).map symbolOfBit := by rw [byteSymbols_eq, List.map_take]
  have count : ((bitsOf b).take k).length = k := by simp [bitsOf]; omega
  have before := readSymbols_concat (read_bytes (f := f) (inv := inv) (bit := bit) (bytes := []) (bs := bs) (by simpa using room))
    (polarised inv (((bitsOf b).take k).map symbolOfBit))
  rw [read_bits (by simp [count, short]), ← polarised_append, ← afterSymbols_append, ← polarised_append, List.nil_append,
    List.nil_append] at before
  unfold xs
  rw [bits, polarised_append, readSymbols_concat before, afterSymbols_append]
  generalize f.afterSymbols bit _ = g
  have last : polarised inv [x] = [seenAs inv x] := polarised_eq inv _
  rw [last]
  refine readSymbols_verdict ?_
  cases started : (bitsOf b).take k with
  | nil =>
    have none : k = 0 := by simpa [started] using count.symm
    obtain rfl := hx.resolve_right fun h => h.1 none
    cases inv <;> rfl
  | cons y ys =>
    rcases hx with rfl | ⟨-, rfl⟩ <;> cases inv <;> rfl

/-- R163: an end delimiter that goes wrong after its first symbol. -/
theorem read_brokenEnd {bs : List Byte} {k : Nat} {x : Symbol} (room : bs.length ≤ 66) (low : 1 ≤ k) (high : k ≤ 5)
    (hx : endDelimiter[k]? ≠ some x) :
    let xs := bs.flatMap byteSymbols ++ endDelimiter.take k ++ [x]
    readSymbols bit (.body f inv [] [] []) (polarised inv xs) =
      .verdict (f.afterSymbols bit (polarised inv xs)) .broken true := by
  intro xs
  unfold xs
  rw [List.append_assoc, polarised_append, readSymbols_concat (read_bytes (by simpa using room)), afterSymbols_append]
  generalize f.afterSymbols bit _ = g
  interval_cases k <;> cases x <;> simp [endDelimiter] at hx <;> cases inv <;> rfl

/-! ## Preamble and start delimiter (R161, R162) -/

/-- R158: data symbols in turn, from one of them on. -/
def alternate (b : Bool) : Nat → List Symbol
  | 0 => []
  | n + 1 => symbolOfBit b :: alternate (!b) n

theorem preamble_alternate {n : Nat} (h : n ≤ 12) : preambleSymbols.drop (12 - n) = alternate (n % 2 == 0) n := by
  interval_cases n <;> rfl

/-- R161: symbols without a transition in mid-bit leave LOCKING where it began. -/
theorem read_lost {lost : List Symbol} (violations : ∀ x ∈ lost, x = .vPlus ∨ x = .vMinus)
    (limit : f.count + lost.length < 32) : readSymbols bit (.locking f 0 none) (polarised inv lost) =
      .reading (.locking (f.afterSymbols bit (polarised inv lost)) 0 none) := by
  rw [polarised_eq]
  induction lost generalizing f with
  | nil => rfl
  | cons x lost ih =>
    rw [List.length_cons] at limit
    have none : symbolBit (seenAs inv x) = none := by
      rcases violations x List.mem_cons_self with rfl | rfl <;> cases inv <;> rfl
    have here : readSymbol bit (.locking f 0 Option.none) (seenAs inv x) =
        .reading (.locking (f.afterSymbol bit (seenAs inv x)) 0 Option.none) := by
      rw [readSymbol, readLocking, none]
      exact if_pos (show f.count + 1 < 32 by omega)
    rw [List.map_cons, readSymbols_cons, here]
    exact ih (fun y hy => violations y (List.mem_cons_of_mem x hy)) (by simp only [afterSymbol_count]; omega)

/-- R162: in SEEKING, data symbols in turn. -/
theorem read_seeking {last b : Bool} {n : Nat} (turn : (b != inv) ≠ last) (limit : f.count + n < 32) :
    ∃ last', readSymbols bit (.seeking f last []) (polarised inv (alternate b n)) =
      .reading (.seeking (f.afterSymbols bit (polarised inv (alternate b n))) last' []) := by
  induction n generalizing f last b with
  | zero => exact ⟨last, by rw [alternate, polarised_eq]; rfl⟩
  | succ n ih =>
    have here : readSymbol bit (.seeking f last []) (seenAs inv (symbolOfBit b)) =
        .reading (.seeking (f.afterSymbol bit (seenAs inv (symbolOfBit b))) (b != inv) []) := by
      simp only [readSymbol, readSeeking, symbolBit_seenAs, if_neg turn]
      exact if_pos (show f.count + 1 < 32 by omega)
    obtain ⟨last', rest⟩ := ih (f := f.afterSymbol bit (seenAs inv (symbolOfBit b))) (last := b != inv) (b := !b)
      (by cases b <;> cases inv <;> decide) (by simp only [afterSymbol_count]; omega)
    refine ⟨last', ?_⟩
    rw [polarised_eq] at rest
    rw [alternate, polarised_eq, List.map_cons, readSymbols_cons, here]
    exact rest

/-- R161: in LOCKING, four data symbols in turn bring the receiver to SEEKING. -/
theorem read_locking {b : Bool} (limit : f.count + 4 < 32) :
    ∃ last, (b != inv) ≠ last ∧ readSymbols bit (.locking f 0 none) (polarised inv (alternate b 4)) =
      .reading (.seeking (f.afterSymbols bit (polarised inv (alternate b 4))) last []) := by
  refine ⟨!(b != inv), by cases b <;> cases inv <;> decide, ?_⟩
  have step : ∀ (g : FrameInProgress) (c : Nat) (last : Option Bool) (y : Bool), g.count + 1 < 32 → last ≠ some (y != inv) →
      readSymbol bit (.locking g c last) (seenAs inv (symbolOfBit y)) =
        if c + 1 = 4 then .reading (.seeking (g.afterSymbol bit (seenAs inv (symbolOfBit y))) (y != inv) [])
        else .reading (.locking (g.afterSymbol bit (seenAs inv (symbolOfBit y))) (c + 1) (some (y != inv))) := by
    intro g c last y room turn
    have counts : (g.afterSymbol bit (seenAs inv (symbolOfBit y))).count < 32 := room
    simp only [readSymbol, readLocking, symbolBit_seenAs, if_neg turn]
    split
    · exact if_pos counts
    · exact if_pos counts
  have run : polarised inv (alternate b 4) = [seenAs inv (symbolOfBit b), seenAs inv (symbolOfBit !b),
      seenAs inv (symbolOfBit b), seenAs inv (symbolOfBit !b)] := by
    rw [polarised_eq]
    cases b <;> rfl
  have turns : ∀ y : Bool, some ((!y) != inv) ≠ some (y != inv) ∧ some (y != inv) ≠ some ((!y) != inv) := fun y => by
    cases y <;> cases inv <;> decide
  rw [run, readSymbols_cons, step f 0 none b (by omega) (by simp), if_neg (by decide)]
  dsimp only
  rw [readSymbols_cons, step _ 1 _ (!b) (by simp only [afterSymbol_count]; omega) (turns b).2, if_neg (by decide)]
  dsimp only
  rw [readSymbols_cons, step _ 2 _ b (by simp only [afterSymbol_count]; omega) (turns b).1, if_neg (by decide)]
  dsimp only
  rw [readSymbols_cons, step _ 3 _ (!b) (by simp only [afterSymbol_count]; omega) (turns b).2]
  cases b <;> cases inv <;> rfl

/-- R162: a symbol of the start delimiter. -/
theorem read_delimiterSymbol {last : Bool} {d : List Symbol} {x : Symbol} (limit : f.count + 1 < 32)
    (begins : readSeeking (f.afterSymbol bit x) last d x = .reading (.seeking (f.afterSymbol bit x) last (d ++ [x]))) :
    readSymbol bit (.seeking f last d) x = .reading (.seeking (f.afterSymbol bit x) last (d ++ [x])) := by
  rw [readSymbol, begins]
  exact if_pos limit

/-- R162: the start delimiter in either polarity. -/
theorem read_delimiter {last : Bool} (limit : f.count + 6 ≤ 32) :
    readSymbols bit (.seeking f last []) (polarised inv startDelimiter) =
      .reading (.body (f.afterSymbols bit (polarised inv startDelimiter)) inv [] [] []) := by
  cases inv
  all_goals
    refine (readSymbols_cons ..).trans ?_
    rw [read_delimiterSymbol (by omega) rfl]
    refine (readSymbols_cons ..).trans ?_
    rw [read_delimiterSymbol (by simp only [afterSymbol_count]; omega) rfl]
    refine (readSymbols_cons ..).trans ?_
    rw [read_delimiterSymbol (by simp only [afterSymbol_count]; omega) rfl]
    refine (readSymbols_cons ..).trans ?_
    rw [read_delimiterSymbol (by simp only [afterSymbol_count]; omega) rfl]
    refine (readSymbols_cons ..).trans ?_
    rw [read_delimiterSymbol (by simp only [afterSymbol_count]; omega) rfl]
    rfl

/-- R161, R162: the preamble, though its first symbols be lost, and the start delimiter bring the receiver to BODY. -/
theorem read_start {lost : List Symbol} {n : Nat} (violations : ∀ x ∈ lost, x = .vPlus ∨ x = .vMinus) (low : 4 ≤ n)
    (high : n ≤ 12) (limit : f.count + lost.length + n + 6 ≤ 32) :
    let xs := polarised inv (lost ++ preambleSymbols.drop (12 - n) ++ startDelimiter)
    readSymbols bit (.locking f 0 none) xs = .reading (.body (f.afterSymbols bit xs) inv [] [] []) ∧
      (f.afterSymbols bit xs).count = f.count + lost.length + n + 6 := by
  intro xs
  obtain ⟨m, rfl⟩ := Nat.exists_eq_add_of_le low
  have preamble : preambleSymbols.drop (12 - (4 + m)) = alternate (m % 2 == 0) 4 ++ alternate (m % 2 == 0) m := by
    rw [preamble_alternate high]
    have short : m ≤ 8 := by omega
    interval_cases m <;> rfl
  have length : ∀ b n, (alternate b n).length = n := fun b n => by
    induction n generalizing b with
    | zero => rfl
    | succ n ih => rw [alternate, List.length_cons, ih]
  unfold xs
  rw [preamble]
  refine ⟨?_, ?_⟩
  · have count : ∀ ys, (f.afterSymbols bit (polarised inv ys)).count = f.count + ys.length := fun ys => by
      rw [(afterSymbols_marks f bit _).1, polarised_length]
    have through := read_lost (f := f) (inv := inv) (bit := bit) violations (by omega)
    obtain ⟨last, turn, clean⟩ := read_locking (f := f.afterSymbols bit (polarised inv lost)) (inv := inv) (bit := bit)
      (b := m % 2 == 0) (by rw [count]; omega)
    obtain ⟨last', seeking⟩ := read_seeking (f := f.afterSymbols bit (polarised inv (lost ++ alternate (m % 2 == 0) 4)))
      (bit := bit) (n := m) turn (by rw [count, List.length_append, length]; omega)
    simp only [polarised_append, afterSymbols_append] at seeking ⊢
    rw [List.append_assoc, readSymbols_concat through, List.append_assoc, readSymbols_concat clean, readSymbols_concat seeking]
    refine read_delimiter ?_
    simp only [afterSymbols_marks, polarised_length, length]
    omega
  · rw [(afterSymbols_marks f bit _).1, polarised_length]
    simp only [List.length_append, length, startDelimiter, List.length_cons, List.length_nil]
    omega

theorem byteSymbols_length (bs : List Byte) : (bs.flatMap byteSymbols).length = 8 * bs.length := by
  induction bs with
  | nil => rfl
  | cons b bs ih =>
    have here : (byteSymbols b).length = 8 := rfl
    rw [List.flatMap_cons, List.length_append, ih, here, List.length_cons]
    omega

theorem bodySymbols_length (body : List Byte) : (bodySymbols body).length = 8 * body.length + 22 := by
  have check : (crcBytes body).length = 2 := rfl
  have last : endDelimiter.length = 6 := rfl
  rw [bodySymbols, List.length_append, byteSymbols_length, List.length_append, check, last]
  omega

/-- Settles O52: the preamble and the start delimiter bring the receiver to BODY, which reads the body to its end. -/
theorem sentFrameIsDecodedGood : Obligations.SentFrameIsDecodedGood := by
  intro body bit f low high fresh
  have decoded : ∀ inv, ∃ g, readSymbols bit (.locking f 0 none) (polarised inv (symbolsOf body)) =
      .verdict g (.good body inv) true ∧ g.start = f.start ∧ g.echo = f.echo ∧ g.count = 8 * body.length + 40 := by
    intro inv
    obtain ⟨started, count⟩ := read_start (f := f) (inv := inv) (bit := bit) (lost := []) (n := 12) (by simp) (by decide)
      (by decide) (by simp [fresh])
    have whole : symbolsOf body = ([] ++ preambleSymbols.drop (12 - 12) ++ startDelimiter) ++ bodySymbols body := by
      rw [← frameSymbols_eq]
      exact (List.append_assoc ..).symm
    rw [whole, polarised_append, readSymbols_concat started, read_good low high, ← afterSymbols_append, ← polarised_append,
      ← whole]
    obtain ⟨reads, start, echo⟩ := afterSymbols_marks f bit (polarised inv (symbolsOf body))
    refine ⟨_, rfl, start, echo, reads.trans ?_⟩
    rw [polarised_length, whole, List.length_append, bodySymbols_length, fresh]
    simp only [preambleSymbols, startDelimiter, List.nil_append, Nat.sub_self, List.drop_zero, List.length_append,
      List.length_cons, List.length_nil]
    omega
  exact ⟨decoded false, decoded true⟩

/-! ## What a run of symbols leaves of the part (R160, R163, R164) -/

theorem exec_segmentFrameReceived {xs : List Symbol} {g : FrameInProgress} {v : Verdict} (hr : s.inReset = false)
    (h : readSymbols (s.bits 1) s.seg.receiver xs = .verdict g v true) :
    exec (.segmentFrameReceived xs) s = .next (closeFrame g v (s.reach (g.endAt (s.bits 1)))) := by
  refine (next_running hr).trans ?_
  simp only [h]

/-- R166: whose verdict it is depends on the echo mark alone. -/
theorem giveVerdict_congr {g : FrameInProgress} (v : Verdict) (h : g.echo = f.echo) (s : State) :
    giveVerdict g v s = giveVerdict f v s := by
  unfold giveVerdict
  rw [h]

theorem endAt_afterSymbols (f : FrameInProgress) (bit : Nat) (xs : List Symbol) :
    (f.afterSymbols bit xs).endAt bit = f.start + (f.count + xs.length) * bit := by
  obtain ⟨count, start, -⟩ := afterSymbols_marks f bit xs
  rw [FrameInProgress.endAt, count, start]

/-- R157, R160: the last transition of an end delimiter begins its last symbol. -/
theorem afterSymbols_end (f : FrameInProgress) (bit : Nat) (xs : List Symbol) :
    (f.afterSymbols bit (xs ++ polarised inv endDelimiter)).lastTransition = f.start + (f.count + xs.length + 5) * bit := by
  obtain ⟨count, start, -⟩ := afterSymbols_marks f bit xs
  rw [afterSymbols_append, ← count, ← start]
  cases inv <;> rfl

/-- R157, R160: the last transition of a data symbol is in the middle of its bit time. -/
theorem afterSymbols_data (f : FrameInProgress) (bit : Nat) (xs : List Symbol) (b : Bool) :
    (f.afterSymbols bit (xs ++ [seenAs inv (symbolOfBit b)])).lastTransition =
      f.start + (f.count + xs.length) * bit + bit / 2 := by
  obtain ⟨count, start, -⟩ := afterSymbols_marks f bit xs
  rw [afterSymbols_append, ← count, ← start]
  cases inv <;> cases b <;> rfl

/-- R164: a verdict given in CLOSING. -/
theorem closeFrame_closed {v : Verdict} (closed : v.closed = true) : closeFrame f v (s.reach (f.endAt (s.bits 1))) =
    giveVerdict f v { s with
      now := max s.now (f.endAt (s.bits 1))
      seg := { s.seg with
        receiver := .quiet, lastEndDelimiter := max s.seg.lastEndDelimiter (f.endAt (s.bits 1))
        lastTransition := max s.seg.lastTransition f.lastTransition } } := by
  unfold closeFrame
  dsimp only
  rw [if_pos closed]
  rfl

/-- R162, R163: a verdict that drains the rest of the frame. -/
theorem closeFrame_open {v : Verdict} (given : v.closed = false) : closeFrame f v s = giveVerdict f v { s with
    seg := { s.seg with receiver := .drain, lastTransition := max s.seg.lastTransition f.lastTransition } } := by
  unfold closeFrame
  dsimp only
  rw [if_neg (by simp [given])]
  rfl

/-- R164: a frame that is closed goes to the judgement of its verdict at the end of its end delimiter. -/
theorem hear_closed {bs : List Byte} {v : Verdict} (hr : s.inReset = false) (reading : s.seg.receiver = .body f inv [] [] [])
    (room : bs.length ≤ 66) (judged : closingVerdict inv bs = v) :
    exec (.segmentFrameReceived (polarised inv (bs.flatMap byteSymbols ++ endDelimiter))) s =
      .next (giveVerdict f v (s.frameEnded f bs.length)) := by
  have run := read_closed (f := f) (inv := inv) (bit := s.bits 1) room
  rw [← reading, judged] at run
  have closed : v.closed = true := by
    rw [← judged, closingVerdict]
    split
    · rfl
    · split <;> rfl
  obtain ⟨-, -, echo⟩ := afterSymbols_marks f (s.bits 1) (polarised inv (bs.flatMap byteSymbols ++ endDelimiter))
  rw [exec_segmentFrameReceived hr run, closeFrame_closed closed, giveVerdict_congr v echo, endAt_afterSymbols,
    polarised_length, List.length_append, polarised_append, afterSymbols_end, polarised_length, byteSymbols_length]
  have earlier : f.start + (f.count + 8 * bs.length + 5) * s.bits 1 =
      f.start + (f.count + 8 * bs.length + 6) * s.bits 1 - s.bits 1 := by
    have next : (f.count + 8 * bs.length + 6) * s.bits 1 = (f.count + 8 * bs.length + 5) * s.bits 1 + s.bits 1 :=
      Nat.succ_mul ..
    rw [next, ← Nat.add_assoc, Nat.add_sub_cancel]
  rw [earlier]
  rfl

/-- R164: a sound frame. -/
theorem hear_good {body : List Byte} (hr : s.inReset = false) (reading : s.seg.receiver = .body f inv [] [] [])
    (low : 2 ≤ body.length) (high : body.length ≤ 64) :
    exec (.segmentFrameReceived (polarised inv (bodySymbols body))) s =
      .next (giveVerdict f (.good body inv) (s.frameEnded f (body.length + 2))) := by
  have length : (body ++ crcBytes body).length = body.length + 2 := List.length_append
  have heard := hear_closed hr reading (by rw [length]; omega) (closingVerdict_good (inv := inv) low)
  rwa [length] at heard

/-- R164: a frame whose bytes are too few or whose check fails. -/
theorem hear_unsound {bs : List Byte} (hr : s.inReset = false) (reading : s.seg.receiver = .body f inv [] [] [])
    (room : bs.length ≤ 66) (unsound : bs.length < 4 ∨ crcSound bs = false) :
    exec (.segmentFrameReceived (polarised inv (bs.flatMap byteSymbols ++ endDelimiter))) s =
      .next (giveVerdict f (if bs.length < 4 then .runt else .checkError) (s.frameEnded f bs.length)) :=
  hear_closed hr reading room (closingVerdict_unsound unsound)

/-- R163: a frame that is given up. -/
theorem hear_givenUp {xs : List Symbol} {v : Verdict} (hr : s.inReset = false) (given : v.closed = false)
    (run : readSymbols (s.bits 1) s.seg.receiver (polarised inv xs) =
      .verdict (f.afterSymbols (s.bits 1) (polarised inv xs)) v true) :
    exec (.segmentFrameReceived (polarised inv xs)) s =
      .next (giveVerdict f v (s.frameGivenUpAfter f (polarised inv xs))) := by
  obtain ⟨-, -, echo⟩ := afterSymbols_marks f (s.bits 1) (polarised inv xs)
  rw [exec_segmentFrameReceived hr run, closeFrame_open given, giveVerdict_congr v echo, endAt_afterSymbols]
  rfl

theorem hear_brokenByte {bs : List Byte} (b : Byte) {k : Nat} {x : Symbol} (hr : s.inReset = false)
    (reading : s.seg.receiver = .body f inv [] [] []) (room : bs.length ≤ 66) (short : k ≤ 7)
    (hx : x = .vPlus ∨ k ≠ 0 ∧ x = .vMinus) :
    let xs := bs.flatMap byteSymbols ++ (byteSymbols b).take k ++ [x]
    exec (.segmentFrameReceived (polarised inv xs)) s =
      .next (giveVerdict f .broken (s.frameGivenUpAfter f (polarised inv xs))) :=
  hear_givenUp hr rfl (by rw [reading]; exact read_brokenByte b room short hx)

theorem hear_brokenEnd {bs : List Byte} {k : Nat} {x : Symbol} (hr : s.inReset = false)
    (reading : s.seg.receiver = .body f inv [] [] []) (room : bs.length ≤ 66) (low : 1 ≤ k) (high : k ≤ 5)
    (hx : endDelimiter[k]? ≠ some x) :
    let xs := bs.flatMap byteSymbols ++ endDelimiter.take k ++ [x]
    exec (.segmentFrameReceived (polarised inv xs)) s =
      .next (giveVerdict f .broken (s.frameGivenUpAfter f (polarised inv xs))) :=
  hear_givenUp hr rfl (by rw [reading]; exact read_brokenEnd room low high hx)

theorem hear_tooLong {bs : List Byte} (hr : s.inReset = false) (reading : s.seg.receiver = .body f inv [] [] [])
    (long : bs.length = 67) :
    let last := max s.seg.lastTransition (f.start + (f.count + 535) * s.bits 1 + s.bits 1 / 2)
    exec (.segmentFrameReceived (polarised inv (bs.flatMap byteSymbols))) s =
      .next (giveVerdict f .tooLong (s.frameGivenUp f 536 last)) := by
  intro last
  have length : (polarised inv (bs.flatMap byteSymbols)).length = 536 := by
    rw [polarised_length, byteSymbols_length, long]
  have latest : (f.afterSymbols (s.bits 1) (polarised inv (bs.flatMap byteSymbols))).lastTransition =
      f.start + (f.count + 535) * s.bits 1 + s.bits 1 / 2 := by
    obtain ⟨b, ys, rfl⟩ : ∃ b ys, bs = ys ++ [b] :=
      ⟨bs.getLast (List.ne_nil_of_length_eq_add_one long), bs.dropLast, (List.dropLast_append_getLast _).symm⟩
    have short : ys.length = 66 := by simpa using long
    rw [List.flatMap_append, List.flatMap_singleton, byteSymbols_split, ← List.append_assoc, polarised_append,
      polarised_eq inv [_], List.map_singleton, afterSymbols_data, polarised_length, List.length_append, byteSymbols_length,
      short]
    rfl
  have heard := hear_givenUp (f := f) (inv := inv) (xs := bs.flatMap byteSymbols) (v := .tooLong) hr rfl
    (by rw [reading]; exact read_tooLong long)
  rw [heard, State.frameGivenUpAfter, latest, length]
  rfl

end Sys2Proof.Machine
end

section
/-! PROOFS. How records end without an answer (R22, R34-R38, R49-R59, R107-R113, R149, R164-R169). -/

-- One theorem after another: theorems checked side by side would each hold a thread.
set_option Elab.async false

namespace Sys2Proof.Machine

variable {s t u : State} {r : Record} {fault : Option SkipReason}

/-! ## The owner of a record that brought no answer (R22, R107-R113, R119, R149) -/

/-- Section 2.4: the outcomes that bring no answer, with the skip reason of a line fault. -/
inductive NoAnswer : TxnOutcome → Option SkipReason → Prop
  | miss : NoAnswer .miss none
  | garbled : NoAnswer .garbled none
  | wrong : NoAnswer .wrong none
  | collision : NoAnswer .collision (some .collision)
  | echoLost : NoAnswer .echoLost (some .echoLost)
  | abandoned : NoAnswer .abandoned (some .abandoned)

theorem releaseReservation_eq (s : State) : releaseReservation s = s.releasing := by
  have released : releaseReservation s =
      overflowIfDue { s with reports := { s.reports with reservations := s.reports.reservations - 1 } } := rfl
  rw [released]
  unfold State.releasing
  extract_lets was q
  by_cases due : 0 < s.reports.lossTally ∧ q.places < 32
  · rw [if_pos due]
    exact overflowIfDue_room (s := { s with reports := q }) due.1 due.2
  · rw [if_neg due]
    by_cases lost : s.reports.lossTally = 0
    · exact overflowIfDue_none (s := { s with reports := q }) lost
    · have full : ¬ ({ s with reports := q } : State).canReserve = true := fun room =>
        due ⟨Nat.pos_of_ne_zero lost, of_decide_eq_true room⟩
      exact (if_neg lost).trans (if_neg full)

theorem clearOnLine_eq (r : Record) (s : State) : clearOnLine r s = s.offLine r := by
  unfold clearOnLine State.offLine
  cases r.origin with
  | outbound t => rfl
  | trigger i =>
    dsimp only
    by_cases input : ∃ l, s.lines.records[i] = .input l
    · obtain ⟨l, hl⟩ := input
      rw [changeInput_input _ hl, hl]
    · rw [changeInput_other _ fun l hl => input ⟨l, hl⟩]
      split
      · rename_i l hl
        exact absurd ⟨l, hl⟩ input
      · rfl
  | _ => rfl

/-- R111: a message that ends takes with it whatever was changed of it. -/
theorem settling_changed (m : Message) (f : Message → Message) (hf : ∀ x, (f x).tag = x.tag) (o : Byte) (extra : List Byte) :
    (changeMessage m.tag f s).settling [m] o extra = s.settling [m] o extra := by
  rw [changeMessage_settling m.tag f [m] hf]
  have others : (s.settling [m] o extra).outbound.map (fun x => if x.tag = m.tag then f x else x) =
      (s.settling [m] o extra).outbound := by
    refine (List.map_congr_left fun x hx => if_neg ?_).trans (List.map_id' _)
    obtain ⟨-, stays⟩ := List.mem_filter.1 hx
    simpa using stays
  unfold changeMessage
  rw [others]
  rfl

/-- R107, R109-R113: what an attempt that brought no answer makes of its message. -/
def State.failing (m : Message) (line : Bool) (s : State) : State :=
  let m' := { m with made := if line then m.made - 1 else m.made, onLine := false }
  if m.gone then s.settling [m'] 2 []
  else if s.sched.mode = .stopping then s.settling [m'] 4 []
  else if line = false ∧ m.made = m.limit then s.settling [m'] 1 []
  else { s with outbound := s.outbound.map fun x => if x.tag = m.tag then m' else x }

theorem attemptFailed_failing (m : Message) (line : Bool) (hd : s.tagsDistinct) :
    attemptFailed { m with onLine := false } line (changeMessage m.tag (fun x => { x with onLine := false }) s) =
      s.failing m line := by
  obtain ⟨m', hm⟩ : ∃ m' : Message, m' = { m with made := if line then m.made - 1 else m.made, onLine := false } := ⟨_, rfl⟩
  have kept : (if line then { { m with onLine := false } with made := m.made - 1 } else { m with onLine := false }) = m' := by
    rw [hm]
    cases line <;> rfl
  have tag : m'.tag = m.tag := by rw [hm]
  have distinct : (changeMessage m.tag (fun x => { x with onLine := false }) s).tagsDistinct := by
    unfold State.tagsDistinct
    rwa [changeMessage_tags m.tag (fun x => { x with onLine := false }) s fun _ => rfl]
  have ends : ∀ o : MessageOutcome, settleMessage m' o [] (changeMessage m.tag (fun x => { x with onLine := false }) s) =
      s.settling [m'] (messageOutcomeCode o) [] := fun o => by
    rw [settleMessage_settling m' o [] distinct, ← tag]
    exact settling_changed m' (fun x => { x with onLine := false }) (fun _ => rfl) _ []
  have stays : changeMessage m.tag (fun _ => m') (changeMessage m.tag (fun x => { x with onLine := false }) s) =
      { s with outbound := s.outbound.map fun x => if x.tag = m.tag then m' else x } := by
    refine congrArg (fun held => ({ s with outbound := held } : State)) (List.map_map.trans (List.map_congr_left fun x _ => ?_))
    by_cases mine : x.tag = m.tag <;> simp [mine]
  unfold attemptFailed State.failing
  dsimp only at kept ⊢
  rw [kept, ← hm, ends, ends, ends, stays]
  refine if_congr Iff.rfl rfl (if_congr Iff.rfl rfl (if_congr ?_ rfl rfl))
  cases line <;> simp

theorem message_changed (x : Byte) {f : Message → Message} (hf : ∀ m, (f m).tag = m.tag) (s : State) :
    (changeMessage x f s).message x = (s.message x).map f := by
  have tags : ((fun m : Message => m.tag == x) ∘ fun m => if m.tag = x then f m else m) = fun m => m.tag == x := by
    funext m
    dsimp only [Function.comp]
    split
    · rw [hf]
    · rfl
  unfold State.message changeMessage State.setOutbound
  dsimp only
  rw [List.find?_map, tags]
  cases found : s.outbound.find? fun m => m.tag == x with
  | none => rfl
  | some m =>
    have mine : m.tag = x := by simpa using List.find?_some found
    simp [mine]

theorem ownerActs_outbound {x : Byte} (h : r.origin = .outbound x) (fault : Option SkipReason) (s : State) :
    s.ownerActs r fault = ((s.message x).map fun m => s.failing m fault.isSome).getD s := by
  unfold State.ownerActs State.message
  rw [h]
  dsimp only
  cases found : s.outbound.find? fun m => m.tag == x with
  | none => rfl
  | some m =>
    have mine : m.tag = x := by simpa using List.find?_some found
    dsimp only [Option.map_some, Option.getD_some, State.failing]
    rw [mine]
    refine if_congr Iff.rfl rfl (if_congr Iff.rfl rfl (if_congr ?_ rfl rfl))
    cases fault <;> simp

theorem ownerStep_outbound {x : Byte} {o : TxnOutcome} (h : NoAnswer o fault) (hr : r.origin = .outbound x)
    (hd : s.tagsDistinct) : outboundOutcome x o (s.offLine r) = s.ownerActs r fault := by
  have line : s.offLine r = changeMessage x (fun m => { m with onLine := false }) s := by
    unfold State.offLine
    rw [hr]
    rfl
  have held := message_changed x (f := fun m => { m with onLine := false }) (fun _ => rfl) s
  rw [ownerActs_outbound hr, line]
  cases found : s.message x with
  | none =>
    have none : (changeMessage x (fun m => { m with onLine := false }) s).message x = none := by rw [held, found]; rfl
    have same : changeMessage x (fun m => { m with onLine := false }) s = s := by
      refine congrArg (fun held => ({ s with outbound := held } : State))
        ((List.map_congr_left fun m hm => if_neg fun mine => ?_).trans (List.map_id' _))
      simpa [mine] using List.find?_eq_none.1 found m hm
    unfold outboundOutcome
    rw [none, same]
    rfl
  | some m =>
    have mine : m.tag = x := by simpa using List.find?_some found
    subst mine
    have fails := fun line => attemptFailed_failing m line hd
    have some : (changeMessage m.tag (fun m => { m with onLine := false }) s).message m.tag = some { m with onLine := false } := by
      rw [held, found]
      rfl
    unfold outboundOutcome
    rw [some]
    cases h <;> exact fails _

theorem fetchOutcome_noAnswer {o : TxnOutcome} (h : NoAnswer o fault) (a : Nat) (s : State) :
    fetchOutcome a o s = s.releasing := by
  rw [← releaseReservation_eq]
  cases h <;> rfl

theorem slotOutcome_noAnswer {o : TxnOutcome} (h : NoAnswer o fault) (offset : Nat) (s : State) :
    slotOutcome offset o s = (fault.map fun reason => s.skipping offset reason).getD s := by
  cases h with
  | collision => exact recordSkip_eq offset .collision s
  | echoLost => exact recordSkip_eq offset .echoLost s
  | abandoned => exact recordSkip_eq offset .abandoned s
  | _ => rfl

/-- R149: a trigger whose CUE brought no answer. -/
theorem triggerOutcome_noAnswer {i : Fin 8} (hr : r.origin = .trigger i) (s : State) (fault : Option SkipReason) :
    triggerOutcome i (cueOwned r s) (s.offLine r) = s.ownerActs r fault := by
  cases hl : s.lines.records[i] with
  | input l =>
    have off : s.offLine r = { s with lines := { s.lines with
        records := s.lines.records.set i (.input { l with cueOnLine := false }) } } := by
      simp only [State.offLine, hr, hl]
    have record : (s.offLine r).lines.records[i] = .input { l with cueOnLine := false } := by
      rw [off]
      exact (set_getElem_line _ i i _).trans (if_pos rfl)
    have owned : cueOwned r s = l.cueOnLine := by simp only [cueOwned, hr, hl]
    have acts : s.ownerActs r fault = { s with lines := { s.lines with records := s.lines.records.set i (.input
        { l with pending := l.pending && !l.cueOnLine, cueOnLine := false }) } } := by
      simp only [State.ownerActs, hr, hl]
    rw [owned, acts, triggerOutcome]
    cases own : l.cueOnLine with
    | true =>
      rw [if_pos rfl, changeInput_input _ record, off]
      simp
    | false =>
      rw [if_neg (by simp), off]
      simp
  | _ => simp [triggerOutcome, cueOwned, State.offLine, State.ownerActs, hr, hl]

/-- R22, R107-R113, R119, R149: the owner's step, its flag cleared, is what the statements say of the owner. -/
theorem ownerStep_noAnswer {o : TxnOutcome} (h : NoAnswer o fault) (hd : s.tagsDistinct) (r : Record) :
    ownerStep r o (cueOwned r s) (s.offLine r) = s.ownerActs r fault := by
  unfold ownerStep
  cases hr : r.origin with
  | mark cycle nominal => simp [State.offLine, State.ownerActs, hr]
  | probe => simp [State.offLine, State.ownerActs, hr]
  | slot offset =>
    have own : s.offLine r = s := by simp [State.offLine, hr]
    dsimp only
    rw [own, slotOutcome_noAnswer h]
    cases fault <;> simp [State.ownerActs, hr]
  | fetch =>
    have own : s.offLine r = s := by simp [State.offLine, hr]
    dsimp only
    rw [own, fetchOutcome_noAnswer h]
    simp [State.ownerActs, hr]
  | outbound x => exact ownerStep_outbound h hr hd
  | trigger i => exact triggerOutcome_noAnswer hr s fault

/-! ## What the roster's step and the owner leave alone -/

theorem failing_setTxn (m : Message) (line : Bool) (x : TransactionUnit) (s : State) :
    State.failing m line (s.setTxn x) = (s.failing m line).setTxn x := by
  unfold State.failing
  simp only [apply_ite (fun t : State => t.setTxn x)]
  rfl

theorem releasing_setTxn (x : TransactionUnit) (s : State) : (s.setTxn x).releasing = s.releasing.setTxn x := by
  unfold State.releasing
  simp only [apply_ite (fun t : State => t.setTxn x)]
  rfl

theorem ownerActs_setTxn (r : Record) (fault : Option SkipReason) (x : TransactionUnit) (s : State) :
    State.ownerActs r fault (s.setTxn x) = (s.ownerActs r fault).setTxn x := by
  cases hr : r.origin with
  | outbound t =>
    rw [ownerActs_outbound hr, ownerActs_outbound hr]
    change ((s.message t).map _).getD _ = _
    cases s.message t with
    | none => rfl
    | some m => exact failing_setTxn m fault.isSome x s
  | trigger i => cases hl : s.lines.records[i] <;> simp [State.ownerActs, hr, hl, State.setTxn]
  | slot o => cases fault <;> simp [State.ownerActs, hr, State.setTxn, State.skipping]
  | fetch => simpa only [State.ownerActs, hr] using releasing_setTxn x s
  | mark cycle nominal => simp only [State.ownerActs, hr]
  | probe => simp only [State.ownerActs, hr]

theorem ownerActs_txn (r : Record) (fault : Option SkipReason) (s : State) : (s.ownerActs r fault).txn = s.txn :=
  (congrArg State.txn (ownerActs_setTxn r fault s.txn s) :)

/-- R35: that the record has ended makes no difference to its owner. -/
theorem ownerActs_discarded (r r' : Record) (fault : Option SkipReason) (s : State) :
    (State.ownerActs r fault (s.setTxn { s.txn with record := some r' })).discarded = (s.ownerActs r fault).discarded := by
  rw [ownerActs_setTxn]
  unfold State.discarded
  rw [ownerActs_txn]
  rfl

/-- R107, R149: taking the attempt or the CUE off the line does not bear on the roster, the reports, the conditions and the
record. -/
theorem offLine_apart (r : Record) (s : State) (x : TransactionUnit) (g : Roster) (q : ReportQueue) (c : ConditionSet) :
    State.offLine r { s with txn := x, roster := g, reports := q, conds := c } =
      { s.offLine r with txn := x, roster := g, reports := q, conds := c } := by
  unfold State.offLine
  cases r.origin with
  | trigger i =>
    dsimp only
    split <;> rfl
  | _ => rfl

/-! ## The roster's step without an answer (R49, R57, R58) -/

theorem setEntry_roster {a : Nat} {e : RosterEntry} (h : s.roster = t.roster) :
    (s.setEntry a e).roster = (t.setEntry a e).roster := by
  unfold State.setEntry State.setRoster
  split
  · exact h
  · dsimp only
    rw [h]

theorem entry_congr (h : s.roster = t.roster) (a : Nat) : s.entry a = t.entry a := by rw [State.entry, h, State.entry]

theorem offLine_frame (r : Record) (s : State) :
    s.offLine r = { s with outbound := (s.offLine r).outbound, lines := (s.offLine r).lines } := by
  unfold State.offLine
  cases r.origin with
  | trigger i =>
    dsimp only
    split <;> rfl
  | _ => rfl

theorem offLine_setEntry (r : Record) (a : Nat) (e : RosterEntry) (s : State) :
    (s.setEntry a e).offLine r = (s.offLine r).setEntry a e := by
  have frame := offLine_frame r s
  have roster : (s.offLine r).roster = s.roster := by rw [frame]
  rw [setEntry_frame s, setEntry_frame (s.offLine r), setEntry_roster roster]
  refine (offLine_apart r s s.txn _ s.reports s.conds).trans ?_
  rw [frame]

theorem offLine_raising (r : Record) (rs : List (ReportKind × List Byte)) (s : State) :
    (s.raising rs).offLine r = (s.offLine r).raising rs := by
  have frame := offLine_frame r s
  have reports : (s.offLine r).reports = s.reports := by rw [frame]
  have conds : (s.offLine r).conds = s.conds := by rw [frame]
  rw [raising_of (s := s) rs reports (by rw [conds])]
  conv_lhs => rw [raising_of (s := s) (t := s) rs rfl rfl]
  refine (offLine_apart r s s.txn s.roster _ _).trans ?_
  rw [frame]

theorem offLine_setTxn (r : Record) (x : TransactionUnit) (s : State) : (s.setTxn x).offLine r = (s.offLine r).setTxn x := by
  refine (offLine_apart r s x s.roster s.reports s.conds).trans ?_
  rw [offLine_frame r s]
  rfl

theorem offLine_tags (r : Record) (s : State) : (s.offLine r).outbound.map (·.tag) = s.outbound.map (·.tag) := by
  unfold State.offLine
  cases r.origin with
  | outbound x => exact changeMessage_tags x (fun m => { m with onLine := false }) s fun _ => rfl
  | trigger i =>
    dsimp only
    split <;> rfl
  | _ => rfl

theorem cueOwned_congr (r : Record) (h : t.lines = s.lines) : cueOwned r t = cueOwned r s := by
  unfold cueOwned
  rw [h]

/-! ## The steps of the end of a record (R35) -/

/-- R35: the record has ended, and its outcome is about to be delivered. -/
def State.recordEnded (r : Record) (s : State) : State :=
  s.setTxn { s.txn with record := some { r with phase := .ended } }

theorem endRecord_noAnswer {o : TxnOutcome} (h : NoAnswer o fault) (hr : s.txn.record = some r) : endRecord o s =
    (ownerStep r o (cueOwned r (s.recordEnded r)) (rosterStep r o ((s.recordEnded r).offLine r))).discarded := by
  have cache : ∀ u, cacheStep r o u = u := fun u => by
    unfold cacheStep
    cases h <;> cases r.kind <;> rfl
  have attention : ∀ u, attentionStep r o u = u := fun u => by cases h <;> rfl
  unfold endRecord
  rw [hr]
  dsimp only
  rw [clearOnLine_eq, cache, attention]
  rfl

/-- R35, R57: an outcome that changes nothing at the roster leaves the end of the record to its owner. -/
theorem endRecord_owner {o : TxnOutcome} (h : NoAnswer o fault) (hr : s.txn.record = some r) (hd : s.tagsDistinct)
    (roster : rosterStep r o ((s.recordEnded r).offLine r) = (t.recordEnded r).offLine r) (lines : t.lines = s.lines)
    (outbound : t.outbound = s.outbound) : endRecord o s = (t.ownerActs r fault).discarded := by
  have distinct : (t.recordEnded r).tagsDistinct := by
    unfold State.tagsDistinct
    change (t.outbound.map _).Nodup
    rwa [outbound]
  have owned : cueOwned r (s.recordEnded r) = cueOwned r (t.recordEnded r) := cueOwned_congr r lines.symm
  rw [endRecord_noAnswer h hr, roster, owned, ownerStep_noAnswer h distinct r]
  exact ownerActs_discarded r _ fault t

theorem rosterStep_fault {o : TxnOutcome} {reason : SkipReason} (h : NoAnswer o (some reason)) (r : Record) (s : State) :
    rosterStep r o s = s := by
  unfold rosterStep rollOutcome workOutcome
  cases h <;> cases r.kind <;> simp

/-- R34, R35: COLLISION, ECHO_LOST and ABANDONED count no miss. -/
theorem endRecord_fault {o : TxnOutcome} {reason : SkipReason} (h : NoAnswer o (some reason)) (hr : s.txn.record = some r)
    (hd : s.tagsDistinct) : endRecord o s = (s.ownerActs r (some reason)).discarded :=
  endRecord_owner h hr hd (rosterStep_fault h r _) rfl rfl

/-- R57: the roster's step of MISS, GARBLED and WRONG at a station's entry. -/
theorem rosterStep_work {o : TxnOutcome} (h : NoAnswer o none) (mark : r.kind ≠ .mark) (roll : r.kind ≠ .roll) (s : State) :
    rosterStep r o s = if s.stationActive r.target then countMiss r.target s else s := by
  unfold rosterStep
  cases kind : r.kind with
  | mark => exact absurd kind mark
  | roll => exact absurd kind roll
  | _ => cases h <;> rfl

theorem rosterStep_none {o : TxnOutcome} (h : NoAnswer o none) (garbled : o = .garbled → r.kind ≠ .roll)
    (kind : r.kind = .mark ∨ r.kind = .roll) (s : State) : rosterStep r o s = s := by
  unfold rosterStep
  rcases kind with kind | kind
  · rw [kind]
  · rw [kind]
    unfold rollOutcome
    cases h with
    | miss => simp
    | wrong => simp
    | garbled => exact absurd kind (garbled rfl)

theorem missed_keeps (r : Record) (s : State) : s.missed r = { s with roster := (s.missed r).roster } := by
  unfold State.missed
  split
  · exact setEntry_frame ..
  · rfl

/-- R57: one miss is counted when it does not reach the limit. -/
theorem rosterStep_missed {o : TxnOutcome} (h : NoAnswer o none) (garbled : o = .garbled → r.kind ≠ .roll)
    (keeps : s.keepsStation r) : rosterStep r o s = s.missed r := by
  by_cases kind : r.kind = .mark ∨ r.kind = .roll
  · rw [rosterStep_none h garbled kind, State.missed, if_neg fun all => kind.elim all.1 all.2.1]
  · obtain ⟨mark, roll⟩ := not_or.1 kind
    rw [rosterStep_work h mark roll, State.missed]
    by_cases active : s.stationActive r.target = true
    · rw [if_pos active, if_pos ⟨mark, roll, active⟩, countMiss]
      dsimp only
      rw [if_neg (by rw [setEntry_sched]; exact keeps mark roll active)]
    · rw [if_neg active, if_neg fun all => active all.2.2]

theorem setTxn_setEntry (x : TransactionUnit) (a : Nat) (e : RosterEntry) (s : State) :
    (s.setTxn x).setEntry a e = (s.setEntry a e).setTxn x := by
  have same : ((s.setTxn x).setEntry a e).roster = (s.setEntry a e).roster := setEntry_roster rfl
  rw [setEntry_frame (s.setTxn x), same, setEntry_frame s]
  rfl

theorem missed_setTxn (r : Record) (x : TransactionUnit) (s : State) : (s.setTxn x).missed r = (s.missed r).setTxn x := by
  unfold State.missed
  rw [setTxn_setEntry, apply_ite (fun t : State => t.setTxn x)]
  rfl

theorem offLine_missed (r : Record) (s : State) : (s.offLine r).missed r = (s.missed r).offLine r := by
  have roster : (s.offLine r).roster = s.roster := by rw [offLine_frame r s]
  have active : (s.offLine r).stationActive r.target = s.stationActive r.target := by
    rw [State.stationActive, entry_congr roster, State.stationActive]
  unfold State.missed
  rw [active, entry_congr roster, ← offLine_setEntry, apply_ite (State.offLine r)]

theorem missed_recordEnded (r : Record) (s : State) :
    ((s.recordEnded r).offLine r).missed r = ((s.missed r).recordEnded r).offLine r := by
  have txn : (s.missed r).txn = s.txn := by rw [missed_keeps]
  rw [offLine_missed, State.recordEnded, State.recordEnded, missed_setTxn, txn]

theorem keepsStation_congr (r : Record) (roster : t.roster = s.roster) (sched : t.sched = s.sched) :
    t.keepsStation r ↔ s.keepsStation r := by
  unfold State.keepsStation State.stationActive
  rw [entry_congr roster, sched]

theorem raising_setTxn (rs : List (ReportKind × List Byte)) (x : TransactionUnit) (s : State) :
    (s.setTxn x).raising rs = (s.raising rs).setTxn x := by
  rw [raising_of (s := s) (t := s.setTxn x) rs rfl rfl]
  conv_rhs => rw [raising_of (s := s) (t := s) rs rfl rfl]
  rfl

/-- R58, R59: the loss of a station has nothing to do with the record. -/
theorem StationLost.setTxn {a : Nat} {state : RosterState} {cause : Byte} {x : TransactionUnit}
    (h : StationLost a state cause (s.setTxn x) t) : StationLost a state cause s (t.setTxn s.txn) where
  rest := by
    have roster : ((s.setTxn x).setEntry a { s.entry a with state := state }).roster =
        (s.setEntry a { s.entry a with state := state }).roster := setEntry_roster rfl
    refine (congrArg (fun u : State => u.setTxn s.txn) h.rest).trans ?_
    rw [← roster]
    rfl
  raised := by
    have told := h.raised
    dsimp only at told ⊢
    rw [raising_setTxn] at told
    exact told.congr rfl rfl rfl rfl
  mirrors := h.mirrors.congr rfl rfl rfl rfl
  others := h.others

/-- R59, R112: no message of a record whose station is lost is held any longer. -/
theorem lost_message {x : Byte} {a : Nat} {m : Message} {state : RosterState} {cause : Byte} (hr : r.origin = .outbound x)
    (hd : s.tagsDistinct) (held : m ∈ s.outbound) (tag : m.tag = x) (destination : m.destination = a)
    (outbound : u.outbound = (s.offLine r).outbound) (lost : StationLost a state cause u t) : t.message x = none := by
  refine List.find?_eq_none.2 fun y hy => ?_
  rw [lost.rest] at hy
  obtain ⟨z, hz, rfl⟩ := List.mem_map.1 hy
  obtain ⟨hz, stays⟩ := List.mem_filter.1 hz
  rw [outbound, State.offLine, hr] at hz
  obtain ⟨w, hw, rfl⟩ := List.mem_map.1 hz
  intro mine
  have goneTag : ∀ z : Message, (if z.destination = a then { z with gone := true } else z).tag = z.tag := fun z => by
    split <;> rfl
  have offTag : (if w.tag = x then { w with onLine := false } else w : Message).tag = w.tag := by split <;> rfl
  have here : w.tag = x := by
    rw [goneTag, offTag] at mine
    simpa using mine
  obtain rfl : w = m := List.inj_on_of_nodup_map hd hw held (here.trans tag.symm)
  simp [here, destination] at stays

/-- R59, R149, R150: the trigger of a record whose station is lost is no longer pending. -/
theorem lost_trigger {i : Fin 8} {a : Nat} {l : InputLine} {k : Key} {state : RosterState} {cause : Byte}
    (hr : r.origin = .trigger i) (hl : s.lines.records[i] = .input l) (bound : l.binding = some k) (address : k.address = a)
    (lines : u.lines = (s.offLine r).lines) (lost : StationLost a state cause u t) :
    changeInput i (fun l => { l with pending := false }) t = t := by
  have off : u.lines.records[i] = .input { l with cueOnLine := false } := by
    rw [lines, State.offLine, hr]
    dsimp only
    rw [hl]
    exact (set_getElem_line _ i i _).trans (if_pos rfl)
  have record := (lost.others i (by rw [off]; rfl)).2
  rw [off] at record
  have cleared : t.lines.records[i] = .input { l with cueOnLine := false, pending := false } := by
    rw [record]
    simp [bound, address]
  have same : t.lines.records.set i (.input { l with cueOnLine := false, pending := false }) = t.lines.records := by
    rw [← cleared]
    exact Vector.set_getElem_self ..
  rw [changeInput_input _ cleared]
  exact congrArg (fun x => ({ t with lines := { t.lines with records := x } } : State)) same

/-- R57, R58: the miss that reaches the limit loses the station. -/
theorem rosterStep_lost {o : TxnOutcome} (h : NoAnswer o none) (mark : r.kind ≠ .mark) (roll : r.kind ≠ .roll)
    (active : s.stationActive r.target = true) (limit : (s.entry r.target).miss + 1 = s.sched.params.missLimit) :
    rosterStep r o s = loseStation r.target .lost .silent (s.missed r) := by
  rw [rosterStep_work h mark roll, if_pos active, countMiss, State.missed,
    if_pos (show r.kind ≠ .mark ∧ r.kind ≠ .roll ∧ s.stationActive r.target = true from ⟨mark, roll, active⟩)]
  dsimp only
  rw [if_pos (by rw [setEntry_sched]; exact limit)]

/-- R59: with its station lost, a record has nothing left to settle but the reservation of a FETCH. -/
theorem ownerStep_lost {o : TxnOutcome} {state : RosterState} {cause : Byte} (h : NoAnswer o none) (hd : s.tagsDistinct)
    (hr : s.txn.record = some r) (law : s.RecordLaw) (lost : StationLost r.target state cause u t)
    (outbound : u.outbound = (s.offLine r).outbound) (lines : u.lines = (s.offLine r).lines) :
    ownerStep r o (cueOwned r s) t = if r.origin = .fetch then t.releasing else t := by
  have law := law r hr
  unfold ownerStep
  cases origin : r.origin with
  | fetch => exact (fetchOutcome_noAnswer h r.target t).trans (if_pos rfl).symm
  | slot offset => exact (slotOutcome_noAnswer h offset t).trans (if_neg (by simp)).symm
  | outbound x =>
    rw [origin] at law
    obtain ⟨-, -, m, held, tag, -, -, destination, -⟩ := law
    have gone := lost_message origin hd held tag destination outbound lost
    dsimp only
    rw [if_neg (by simp), outboundOutcome, gone]
  | trigger i =>
    rw [origin] at law
    dsimp only
    rw [if_neg (by simp), triggerOutcome]
    cases owned : cueOwned r s with
    | false => rfl
    | true =>
      obtain ⟨l, hl, cue⟩ : ∃ l, s.lines.records[i] = .input l ∧ l.cueOnLine = true := by
        rw [cueOwned, origin] at owned
        dsimp only at owned
        split at owned
        · rename_i l hl
          exact ⟨l, hl, owned⟩
        · cases owned
      obtain ⟨k, bound, address⟩ := law.2 l hl cue
      exact lost_trigger origin hl bound address lines lost
  | _ => rw [if_neg (by simp)]

/-- R35, R57-R59: MISS, GARBLED and WRONG. -/
theorem endRecord_unanswered {o : TxnOutcome} (h : NoAnswer o none) (garbled : o = .garbled → r.kind ≠ .roll)
    (hr : s.txn.record = some r) (hd : s.tagsDistinct) : Unanswered r s (endRecord o s) := by
  have frame := offLine_frame r (s.recordEnded r)
  have roster : ((s.recordEnded r).offLine r).roster = s.roster := by rw [frame]; rfl
  have sched : ((s.recordEnded r).offLine r).sched = s.sched := by rw [frame]; rfl
  refine ⟨fun keeps => ?_, fun reaches low high keys law => ?_⟩
  · refine endRecord_owner h hr hd ?_ (by rw [missed_keeps]) (by rw [missed_keeps])
    rw [rosterStep_missed h garbled ((keepsStation_congr r roster sched).2 keeps), missed_recordEnded]
  · unfold State.keepsStation at reaches
    push Not at reaches
    obtain ⟨mark, roll, active, limit⟩ := reaches
    have lose : rosterStep r o ((s.recordEnded r).offLine r) =
        loseStation r.target .lost .silent (((s.recordEnded r).offLine r).missed r) := by
      refine rosterStep_lost h mark roll ?_ ?_
      · rw [State.stationActive, entry_congr roster]
        exact active
      · rw [entry_congr roster, sched]
        exact limit
    have work : ((s.recordEnded r).offLine r).missed r =
        ((s.offLine r).missed r).setTxn { s.txn with record := some { r with phase := .ended } } := by
      rw [State.recordEnded, offLine_setTxn, missed_setTxn]
    have outbound : ((s.offLine r).missed r).outbound = (s.offLine r).outbound := by rw [missed_keeps]
    have distinct : ((s.offLine r).missed r).tagsDistinct := by
      unfold State.tagsDistinct
      rw [outbound, offLine_tags]
      exact hd
    have keys : ((s.offLine r).missed r).keysDistinct := by
      unfold State.keysDistinct
      rw [missed_keeps, offLine_frame]
      exact keys
    rw [endRecord_noAnswer h hr, lose, work, cueOwned_congr r (show (s.recordEnded r).lines = s.lines from rfl)]
    have lost : StationLost r.target .lost 0 _ _ := loseStation_lost (a := r.target) (state := .lost) (cause := .silent)
      (s := ((s.offLine r).missed r).setTxn { s.txn with record := some { r with phase := .ended } }) distinct keys
    have rest := lost.rest
    generalize loseStation r.target .lost .silent _ = t at lost rest
    have txn : t.txn = { s.txn with record := some { r with phase := .ended } } := by rw [rest]; rfl
    have lines : ((s.offLine r).missed r).lines = (s.offLine r).lines := by rw [missed_keeps]
    have held : ((s.offLine r).missed r).txn = s.txn := by rw [missed_keeps, offLine_frame]
    rw [ownerStep_lost h hd hr law lost outbound lines]
    refine ⟨t.setTxn s.txn, held ▸ lost.setTxn, ?_⟩
    rw [releasing_setTxn, ← apply_ite (fun v : State => v.setTxn s.txn)]
    have kept : (if r.origin = .fetch then t.releasing else t).txn = t.txn := by
      split
      · exact (congrArg State.txn (releasing_setTxn t.txn t) :)
      · rfl
    generalize (if r.origin = .fetch then t.releasing else t) = v at kept
    unfold State.discarded State.setTxn
    rw [kept, txn]

end Sys2Proof.Machine
end

section
/-! PROOFS. The verdicts on received frames (R31-R33, R38, R49, R55, R164, R166). -/

-- One theorem after another: theorems checked side by side would each hold a thread.
set_option Elab.async false

namespace Sys2Proof.Machine

variable {s t u w : State} {r : Record} {f : FrameInProgress} {v : Verdict}

/-! ## A garbled answer (R49, R55) -/

theorem setEntry_txn (s : State) (a : Nat) (e : RosterEntry) : (s.setEntry a e).txn = s.txn := by rw [setEntry_frame]

/-- R55: a clash at an entry. -/
def State.clashing (a : Nat) (s : State) : State :=
  let clash := s.setEntry a { s.entry a with clash := min 255 ((s.entry a).clash + 1) }
  if (s.entry a).clash = 0 then clash.raising [(.addressClash, [byteOf a])] else clash

theorem clashing_keeps (a : Nat) (s : State) : s.clashing a =
    { s with roster := (s.clashing a).roster, reports := (s.clashing a).reports, conds := (s.clashing a).conds } := by
  unfold State.clashing
  dsimp only
  split
  · rw [raising_of (s := s.setEntry a _) _ rfl rfl, setEntry_frame]
  · rw [setEntry_frame]

theorem clashing_recordEnded (r : Record) (a : Nat) (s : State) :
    State.clashing a ((s.recordEnded r).offLine r) = ((s.clashing a).recordEnded r).offLine r := by
  have roster : ((s.recordEnded r).offLine r).roster = s.roster := by
    rw [offLine_frame]
    rfl
  have txn : (s.clashing a).txn = s.txn := by rw [clashing_keeps]
  unfold State.recordEnded at roster ⊢
  rw [txn]
  unfold State.clashing
  dsimp only
  rw [entry_congr roster, ← offLine_setEntry, ← offLine_raising, setTxn_setEntry, raising_setTxn,
    ← apply_ite (State.offLine r),
    ← apply_ite (fun t : State => t.setTxn { s.txn with record := some { r with phase := .ended } })]

theorem rosterStep_clash (roll : r.kind = .roll) (reachable : (s.entry r.target).state = .vacant ∨ (s.entry r.target).state = .lost) :
    rosterStep r .garbled s = s.clashing r.target := by
  unfold rosterStep
  rw [roll]
  exact if_pos reachable

theorem rosterStep_closed (roll : r.kind = .roll)
    (closed : ¬ ((s.entry r.target).state = .vacant ∨ (s.entry r.target).state = .lost)) : rosterStep r .garbled s = s := by
  unfold rosterStep
  rw [roll]
  exact if_neg closed

/-- R35, R49, R55, R57-R59: GARBLED. -/
theorem endRecord_garbled (hr : s.txn.record = some r) (hd : s.tagsDistinct) : GarbledEnds r s (endRecord .garbled s) := by
  have roster : ((s.recordEnded r).offLine r).roster = s.roster := by
    rw [offLine_frame]
    rfl
  refine ⟨fun roll => endRecord_unanswered .garbled (fun _ => roll) hr hd, fun roll => ?_⟩
  by_cases closed : (s.entry r.target).state ≠ .vacant ∧ (s.entry r.target).state ≠ .lost
  · rw [if_pos closed]
    exact endRecord_owner .garbled hr hd (rosterStep_closed roll (by rw [entry_congr roster]; tauto)) rfl rfl
  · rw [if_neg closed]
    refine endRecord_owner (t := s.clashing r.target) .garbled hr hd ?_ (by rw [clashing_keeps]) (by rw [clashing_keeps])
    rw [rosterStep_clash roll (by rw [entry_congr roster]; tauto), clashing_recordEnded]

/-! ## Foreign traffic, stray frames and the echo (R38, R164, R166) -/

theorem frameKindCode_of {n : Nat} {k : FrameKind} (h : frameKindOf n = some k) : frameKindCode k = n := by
  unfold frameKindOf at h
  split at h <;> cases h <;> rfl

/-- R38: the codes of the kinds that only a master sends. -/
theorem partSent_iff (n : Nat) : (∃ k, frameKindOf n = some k ∧ partSent k = true) ↔ n ∈ [1, 2, 4, 6, 8] := by
  constructor
  · rintro ⟨k, code, sent⟩
    rw [← frameKindCode_of code]
    cases k <;> simp_all [partSent, frameKindCode]
  · intro h
    simp only [List.mem_cons, List.not_mem_nil, or_false] at h
    rcases h with rfl | rfl | rfl | rfl | rfl
    · exact ⟨.mark, rfl, rfl⟩
    · exact ⟨.cue, rfl, rfl⟩
    · exact ⟨.roll, rfl, rfl⟩
    · exact ⟨.fetch, rfl, rfl⟩
    · exact ⟨.send, rfl, rfl⟩

/-- R38, R139: FOREIGN is active, and its start has been reported. -/
def State.foreignKnown (kind a : Nat) (s : State) : State :=
  if s.conds.foreign.active then s
  else State.raising
    [(.foreignTraffic, [byteOf kind, byteOf a, modeCode s.sched.mode] ++
      optCycleBytes (if s.sched.mode = .run then some s.sched.cycle else none))]
    { s with conds := { s.conds with foreign := { active := true, latched := true } } }

theorem sightForeign_eq (k : FrameKind) (a : Nat) (s : State) : sightForeign k a s =
    let t := s.foreignKnown (frameKindCode k) a
    { t with txn := { t.txn with seenThisCycle := true, lastForeign := some s.now } } := by
  have sighted : (if s.conds.foreign.active then s
      else raiseReport .foreignTraffic
        ([byteOf (frameKindCode k), byteOf a, modeCode s.sched.mode] ++
          optCycleBytes (if s.sched.mode = .run then some s.sched.cycle else none))
        (activate .foreign s)) = s.foreignKnown (frameKindCode k) a := by
    unfold State.foreignKnown
    by_cases active : s.conds.foreign.active = true
    · rw [if_pos active, if_pos active]
    · have raised : activate .foreign s =
          { s with conds := { s.conds with foreign := { active := true, latched := true } } } := if_neg active
      rw [if_neg active, if_neg active, raised]
      rfl
  have now : (s.foreignKnown (frameKindCode k) a).now = s.now := by
    unfold State.foreignKnown
    split
    · rfl
    · exact raising_now _ _
  unfold sightForeign
  dsimp only
  rw [sighted]
  generalize s.foreignKnown (frameKindCode k) a = t at now
  exact congrArg (fun n => t.setTxn { t.txn with seenThisCycle := true, lastForeign := some n }) now

theorem noteForeign_sighting (body : List Byte) (s : State) : noteForeign body s = s.sighting body := by
  have sees : s.sighting body = if bodyKind body ∈ [1, 2, 4, 6, 8] then
      (let t := s.foreignKnown (bodyKind body) (bodyAddress body)
       { t with txn := { t.txn with seenThisCycle := true, lastForeign := some s.now } }) else s := rfl
  rw [sees]
  by_cases sent : ∃ k, frameKindOf (bodyKind body) = some k ∧ partSent k = true
  · rw [if_pos ((partSent_iff _).1 sent)]
    obtain ⟨k, kind, sent⟩ := sent
    simp only [noteForeign, kind, sent, if_true, sightForeign_eq, frameKindCode_of kind]
  · rw [if_neg fun h => sent ((partSent_iff _).2 h)]
    cases kind : frameKindOf (bodyKind body) with
    | none => simp only [noteForeign, kind]
    | some k =>
      simp only [noteForeign, kind]
      exact if_neg fun h => sent ⟨k, kind, h⟩

theorem noteEcho_eq (v : Verdict) (s : State) : noteEcho v s = s.echoNoted v := by
  have away : s.seg.transmitter ≠ .idle ↔ s.seg.transmitter.busy = true := by
    cases s.seg.transmitter <;> simp [Transmitter.busy]
  have fresh : s.seg.echo = none ↔ ¬ s.seg.echo.isSome = true := by simp
  unfold noteEcho State.echoNoted
  by_cases kept : v = .garbled ∨ s.seg.echo.isSome = true ∨ ¬ s.seg.transmitter.busy = true
  · rw [if_pos kept, if_neg (by rw [away, fresh]; tauto)]
  · rw [if_neg kept, if_pos (by rw [away, fresh]; tauto)]
    rfl

/-- R38: a frame that no record awaits. -/
def State.strayed (s : State) : State := { s with txn := { s.txn with stray := s.txn.stray + 1 } }

theorem receivedVerdict_stray (v : Verdict) (h : ∀ r, s.txn.record = some r → r.awaitsNone s.now) :
    receivedVerdict v s = strayFrame v s := by
  unfold receivedVerdict
  cases hr : s.txn.record with
  | none => rfl
  | some r =>
    dsimp only
    rcases h r hr with ⟨since, phase | phase⟩ | ⟨deadline, phase, late⟩
    · rw [phase]
    · rw [phase]
    · rw [phase]
      exact if_pos late

theorem strayFrame_good (body : List Byte) (inverted : Bool) (s : State) :
    strayFrame (.good body inverted) s = s.strayed.sighting body := noteForeign_sighting body s.strayed

/-- R31, R38, R49, R164, R166: a verdict other than GOOD. -/
theorem giveVerdict_unsound (f : FrameInProgress) (v : Verdict) (s : State) (unsound : ∀ body inverted, v ≠ .good body inverted) :
    UnsoundVerdict f v s (giveVerdict f v s) := by
  refine ⟨fun echo => ?_, fun echo awaits => ?_, fun r echo hr phase hd => ?_⟩
  · rw [giveVerdict, if_pos echo, noteEcho_eq]
  · rw [giveVerdict, if_neg (by simp [echo]), receivedVerdict_stray v awaits]
    cases v with
    | good body inverted => exact absurd rfl (unsound body inverted)
    | _ => rfl
  · have ended : receivedVerdict v s = endRecord .garbled s := by
      unfold receivedVerdict
      rw [hr]
      dsimp only
      rw [phase]
      cases v with
      | good body inverted => exact absurd rfl (unsound body inverted)
      | _ => rfl
    rw [giveVerdict, if_neg (by simp [echo]), ended]
    exact endRecord_garbled hr hd

end Sys2Proof.Machine
end

section
/-! PROOFS. Records that end unanswered, and the echo (R28-R35, R49-R59, R164-R167). -/

-- One theorem after another: theorems checked side by side would each hold a thread.
set_option Elab.async false

namespace Sys2Proof.Machine

variable {s t u w : State} {r : Record} {f : FrameInProgress} {v : Verdict} {inv : Bool}

/-! ## Foreign traffic leaves the record and its owner alone (R38) -/

theorem foreignKnown_keeps (kind a : Nat) (s : State) : s.foreignKnown kind a =
    { s with reports := (s.foreignKnown kind a).reports, conds := (s.foreignKnown kind a).conds } := by
  unfold State.foreignKnown
  split
  · rfl
  · rw [raising_of (s := { s with conds := { s.conds with foreign := { active := true, latched := true } } }) _ rfl rfl]

theorem sighting_keeps (body : List Byte) (s : State) : s.sighting body = { s with
    txn := { (s.sighting body).txn with record := s.txn.record, stray := s.txn.stray }
    reports := (s.sighting body).reports, conds := (s.sighting body).conds } := by
  have sees : s.sighting body = if bodyKind body ∈ [1, 2, 4, 6, 8] then
      (let t := s.foreignKnown (bodyKind body) (bodyAddress body)
       { t with txn := { t.txn with seenThisCycle := true, lastForeign := some s.now } }) else s := rfl
  rw [sees]
  split
  · rw [foreignKnown_keeps]
  · rfl

/-! ## The four checks on an answer (R32) -/

theorem matchesBody_iff (e : Expected) (body : List Byte) : e.matchesBody body = true ↔ e.metBy body := by
  have kind : (frameKindOf (bodyKind body) == some e.kind) = true ↔ bodyKind body = frameKindCode e.kind := by
    rw [beq_iff_eq]
    refine ⟨fun h => (frameKindCode_of h).symm, fun h => ?_⟩
    rw [h]
    cases e <;> rfl
  unfold Expected.matchesBody Expected.metBy
  rw [Bool.and_eq_true, Bool.and_eq_true, Bool.and_eq_true, kind, beq_iff_eq]
  cases e <;> simp [Expected.kind, Expected.address, Expected.lengthFits, Expected.itemFits, frameKindCode, bodyKind,
    bodyAddress, and_assoc]

theorem judgeAnswer_wrong {body : List Byte} (h : ∀ e, r.expected = some e → ¬ e.metBy body) (inverted : Bool) :
    judgeAnswer r.expected body inverted = .wrong := by
  unfold judgeAnswer
  cases expected : r.expected with
  | none => rfl
  | some e => exact if_neg fun met => h e expected ((matchesBody_iff e body).1 met)

/-- R31, R32, R38: a GOOD frame in RECEIVING. -/
theorem giveVerdict_receiving {body : List Byte} (echo : f.echo = false) (hr : s.txn.record = some r)
    (phase : r.phase = .receiving) : giveVerdict f (.good body inv) s =
      endRecord (judgeAnswer r.expected body inv) (s.sighting body) := by
  have ended : receivedVerdict (.good body inv) s = endRecord (judgeAnswer r.expected body inv) (noteForeign body s) := by
    unfold receivedVerdict
    rw [hr]
    dsimp only
    rw [phase]
  rw [giveVerdict, if_neg (by simp [echo]), ended, noteForeign_sighting]

/-- Settles O46: each way a record ends without an answer, by its outcome. -/
theorem unansweredRecordsEnd : Obligations.UnansweredRecordsEnd := by
  refine ⟨fun s r hr held hd => ⟨fun deadline phase => ?_, fun since phase => ?_⟩, fun s r f inv receiving hd => ?_⟩
  · refine ⟨_, (next_running hr).trans ?_, endRecord_unanswered (o := .miss) .miss (by simp) held hd⟩
    simp only [held, phase]
    rfl
  · refine (next_running hr).trans ?_
    simp only [held, phase]
    exact congrArg Host.Outcome.next (endRecord_fault .abandoned held hd)
  · obtain ⟨hr, held, phase, reading, echo⟩ := receiving
    have garbled : ∀ (v : Verdict) (u : State), (∀ body inverted, v ≠ .good body inverted) → u.txn = s.txn →
        u.outbound = s.outbound → GarbledEnds r u (giveVerdict f v u) := fun v u unsound txn outbound =>
      (giveVerdict_unsound f v u unsound).2.2 r echo (by rw [txn, held]) phase (by rw [State.tagsDistinct, outbound]; exact hd)
    refine ⟨fun body low high unmet => ?_, fun bs room unsound => ⟨_, hear_unsound hr reading room unsound, ?_⟩,
      fun bs b k x room short hx => ⟨_, hear_brokenByte b hr reading room short hx, garbled _ _ (by simp) rfl rfl⟩,
      fun bs k x room low high hx => ⟨_, hear_brokenEnd hr reading room low high hx, garbled _ _ (by simp) rfl rfl⟩,
      fun bs long => ⟨_, hear_tooLong hr reading long, garbled _ _ (by simp) rfl rfl⟩⟩
    · have frame := sighting_keeps body (s.frameEnded f (body.length + 2))
      refine ⟨_, hear_good hr reading low high, ?_⟩
      rw [giveVerdict_receiving (s := s.frameEnded f (body.length + 2)) echo held phase, judgeAnswer_wrong unmet]
      exact endRecord_unanswered .wrong (by simp) (by rw [frame]; exact held) (by rw [State.tagsDistinct, frame]; exact hd)
    · refine garbled _ _ ?_ rfl rfl
      intro body inverted
      split <;> simp

/-! ## The echo verdict (R29, R34, R166, R167) -/

theorem bits_eq_mul (s : State) (n : Nat) : s.bits n = n * s.bits 1 := by rw [State.bits, State.bits, Nat.one_mul]

/-- R165-R167: the part at the end of its own frame, the echo verdict given. -/
def State.echoJudged (v : EchoVerdict) (ended : Nat) (s : State) : State :=
  { s with
    now := max s.now ended
    seg := { s.seg with
      transmitter := .idle, echo := none, lastEcho := some v
      lastEndDelimiter := max s.seg.lastEndDelimiter ended }
    conds := match v with
      | .sound => { s.conds with noEcho := { s.conds.noEcho with active := false } }
      | .noEcho =>
        { s.conds with noEcho :=
            { active := true, latched := s.conds.noEcho.latched || !s.conds.noEcho.active } }
      | .unsound => s.conds }

theorem followEcho_judged (v : EchoVerdict) (ended : Nat) (s : State) :
    followEcho v (returnToIdle v ended (s.reach ended)) = s.echoJudged v ended := by
  cases v with
  | noEcho => exact activate_eq .noEcho _
  | _ => rfl

theorem exec_echoVerdict {body : List Byte} {since : Nat} (hr : s.inReset = false) (held : s.txn.record = some r)
    (sending : s.seg.transmitter = .sending body since) :
    let ended := since + (8 * body.length + 40) * s.bits 1
    let v := echoVerdictOf body s.seg
    exec .echoVerdict s = .next (leaveSending r v ended (s.echoJudged v ended)) := by
  refine (next_running hr).trans ?_
  simp only [held, sending, followEcho_judged]
  rw [bits_eq_mul s (frameBits body.length)]
  rfl

/-- R35: a MARK ends with nothing to deliver. -/
theorem endRecord_mark {o : TxnOutcome} {cycle : Word32} {nominal : Nat} (held : s.txn.record = some r)
    (origin : r.origin = .mark cycle nominal) (kind : r.kind = .mark) (silent : ∀ a attention inverted, o ≠ .answered a attention inverted) :
    endRecord o s = s.discarded := by
  have attends : ∀ u, attentionStep r o u = u := fun u => by
    cases o with
    | answered a attention inverted => exact absurd rfl (silent a attention inverted)
    | _ => rfl
  unfold endRecord
  rw [held]
  dsimp only
  rw [attends]
  simp only [clearOnLine, rosterStep, cacheStep, ownerStep, origin, kind]
  rfl

/-- Settles O45: the part judges its own echo, a fault ends the record for its owner, and the echo frames go to that check. -/
theorem echoVerdictLeavesSending : Obligations.EchoVerdictLeavesSending := by
  refine ⟨fun s r body since v hr held sending verdict => ?_, fun s f inv hr reading echo => ?_⟩
  · intro ended base
    have judged : v = echoVerdictOf body s.seg := verdict
    have run : exec .echoVerdict s = .next (leaveSending r v ended base) := by
      rw [exec_echoVerdict hr held sending, ← judged]
      rfl
    have txn : base.txn = s.txn := rfl
    have sched : base.sched = s.sched := rfl
    have outbound : base.outbound = s.outbound := rfl
    clear_value base
    have still : base.txn.record = some r := by rw [txn, held]
    rw [run]
    refine ⟨fun sound stays kind => ?_, fun cycle nominal origin kind => ?_, fun fault hd => ?_⟩
    · subst sound
      have window : base.bits base.sched.params.window = s.bits s.sched.params.window := by
        rw [State.bits, State.bits, sched]
      unfold leaveSending
      rw [if_neg (by simp [stays])]
      dsimp only
      rw [if_neg kind, setPhase, txn, window]
      rfl
    · have ends : ∀ o : TxnOutcome, (∀ a attention inverted, o ≠ .answered a attention inverted) →
          endRecord o base = base.discarded := fun o => endRecord_mark still origin kind
      unfold leaveSending
      rw [ends .abandoned (by simp), ends .sent (by simp), ends .collision (by simp), ends .echoLost (by simp), if_pos kind]
      cases v <;> simp
    · have distinct : base.tagsDistinct := by rwa [State.tagsDistinct, outbound]
      intro reason
      unfold leaveSending
      by_cases abandoned : r.abandonAtEnd = true
      · have given : reason = .abandoned := if_pos abandoned
        rw [if_pos abandoned, given, endRecord_fault .abandoned still distinct]
      · have given : reason = if v = .noEcho then .echoLost else .collision := if_neg abandoned
        rw [if_neg abandoned, given]
        cases v with
        | sound => exact absurd (fault.resolve_right abandoned) (by simp)
        | unsound => exact congrArg _ (endRecord_fault .collision still distinct)
        | noEcho => exact congrArg _ (endRecord_fault .echoLost still distinct)
  · have heard : ∀ (v : Verdict) (u : State), giveVerdict f v u = u.echoNoted v := fun v u => by
      rw [giveVerdict, if_pos echo, noteEcho_eq]
    refine ⟨fun body low high => ?_, fun bs room unsound => ?_, fun bs b k x room short hx => ?_,
      fun bs k x room low high hx => ?_, fun bs long => ?_⟩
    · exact (hear_good hr reading low high).trans (congrArg _ (heard _ _))
    · exact (hear_unsound hr reading room unsound).trans (congrArg _ (heard _ _))
    · exact (hear_brokenByte b hr reading room short hx).trans (congrArg _ (heard _ _))
    · exact (hear_brokenEnd hr reading room low high hx).trans (congrArg _ (heard _ _))
    · exact (hear_tooLong hr reading long).trans (congrArg _ (heard _ _))

end Sys2Proof.Machine
end

section
/-! PROOFS. The line, the babble guard and stray frames (R38-R40, R160-R163, R168, R169). -/

-- One theorem after another: theorems checked side by side would each hold a thread.
set_option Elab.async false

namespace Sys2Proof.Machine

variable {s t u w : State} {r : Record} {f : FrameInProgress} {v : Verdict} {inv : Bool}

/-! ## The babble guard and FOREIGN (R34, R40, R168, R169) -/

/-- R168: a babble fault is declared and reported. -/
def State.babbling (s : State) : State :=
  State.raising [(.lineFault, [0])] { s with
    now := max s.now (s.seg.activeSince + s.bits 1024)
    seg := { s.seg with babbleFault := true }
    conds := { s.conds with babble :=
      { active := true, latched := s.conds.babble.latched || !s.conds.babble.active } } }

theorem declareBabble_eq (s : State) :
    declareBabble (s.reach (s.seg.activeSince + s.bits Config.babbleBits)) = abandonRecord s.babbling := by
  unfold declareBabble
  rw [activate_eq]
  rfl

theorem babbling_keeps (s : State) : s.babbling.txn = s.txn ∧ s.babbling.outbound = s.outbound := by
  have told := raising_of (s := { s with
    now := max s.now (s.seg.activeSince + s.bits 1024)
    seg := { s.seg with babbleFault := true }
    conds := { s.conds with babble :=
      { active := true, latched := s.conds.babble.latched || !s.conds.babble.active } } }) [(.lineFault, [0])] rfl rfl
  unfold State.babbling
  rw [told]
  exact ⟨rfl, rfl⟩

theorem awaitsNone_later {r : Record} {m n : Nat} (h : r.awaitsNone m) (le : m ≤ n) : r.awaitsNone n :=
  h.imp_right fun ⟨deadline, phase, late⟩ => ⟨deadline, phase, by omega⟩

/-- Settles O49: a babble fault abandons the record, and a frame that no record awaits is stray. -/
theorem babbleAndForeignFollowTime : Obligations.BabbleAndForeignFollowTime := by
  refine ⟨fun s hr => ⟨fun active calm => ?_, fun fault quiet => ?_, fun last seen mode foreign => ?_, fun mode => ?_⟩,
    fun s f inv hr reading echo awaits => ?_⟩
  · have run : exec .babbleDetected s = .next (abandonRecord s.babbling) := by
      refine (next_running hr).trans ?_
      rw [if_pos ⟨active, by simp [calm]⟩, declareBabble_eq]
    obtain ⟨txn, outbound⟩ := babbling_keeps s
    intro u
    change exec .babbleDetected s = .next (abandonRecord u) at run
    change u.txn = s.txn at txn
    change u.outbound = s.outbound at outbound
    clear_value u
    rw [run]
    refine ⟨fun sends => ?_, fun r held idle hd => ?_⟩
    · rw [abandonRecord, ← txn]
      cases held : u.txn.record with
      | none =>
        have same : u.txn = { u.txn with record := none } := by rw [← held]
        exact congrArg Host.Outcome.next (congrArg u.setTxn same)
      | some r =>
        obtain ⟨since, phase⟩ := sends r (by rw [← txn, held])
        simp only [phase, Option.map_some]
        rfl
    · have still : u.txn.record = some r := by rw [txn, held]
      have distinct : u.tagsDistinct := by rwa [State.tagsDistinct, outbound]
      have ended : abandonRecord u = endRecord .abandoned u := by
        unfold abandonRecord
        rw [still]
        dsimp only
        split
        · rename_i since phase
          exact absurd phase (idle since)
        · rfl
      rw [ended, endRecord_fault .abandoned still distinct]
  · refine (next_running hr).trans ?_
    rw [if_pos ⟨fault, quiet⟩]
    rfl
  · refine (next_running hr).trans ?_
    simp only [seen]
    rw [if_pos ⟨mode, foreign⟩]
    rfl
  · refine (next_running hr).trans ?_
    simp only [mode]
    split <;> simp
  · have stray : ∀ v n, giveVerdict f v (s.frameEnded f n) = strayFrame v (s.frameEnded f n) := fun v n => by
      rw [giveVerdict, if_neg (by simp [echo])]
      exact receivedVerdict_stray v fun r held => awaitsNone_later (awaits r held) (le_max_left ..)
    refine ⟨fun body low high => ?_, fun bs room unsound => ?_⟩
    · refine (hear_good hr reading low high).trans (congrArg _ ?_)
      rw [stray, strayFrame_good]
      rfl
    · refine (hear_unsound hr reading room unsound).trans (congrArg _ ?_)
      rw [stray]
      by_cases short : bs.length < 4
      · rw [if_pos short]
        rfl
      · rw [if_neg short]
        rfl

/-! ## Transitions, quiet and the start delimiter (R30, R160-R163) -/

/-- R30, R161: the first transition of a frame. -/
theorem exec_firstTransition (hr : s.inReset = false) : exec .firstTransition s = .next
    (if s.seg.receiver = .quiet then hearTransition (beginFrame (seeTransition s)) else seeTransition s) := next_running hr

/-- Settles O47: each event of the line and the receiver, with the judgement of what it gives up. -/
theorem lineAndReceiverFollowTransitions : Obligations.LineAndReceiverFollowTransitions := by
  intro s hr
  refine ⟨fun quiet => ?_, fun busy => ?_, fun f inv lost n locking violations low high limit => ?_,
    fun active idle => ?_, fun f active reading => ?_, fun quiet => ?_, fun f reading => ?_, fun locking seeking => ?_⟩
  · rw [exec_firstTransition hr, if_pos quiet]
    have same : (beginFrame (seeTransition s)).txn = s.txn := rfl
    have now : (beginFrame (seeTransition s)).now = s.now := rfl
    unfold hearTransition
    rw [same, now]
    cases held : s.txn.record with
    | none => rfl
    | some r =>
      dsimp only
      cases phase : r.phase with
      | awaiting deadline =>
        dsimp only
        by_cases due : s.now ≤ deadline
        · rw [if_pos due, if_pos due]
          rfl
        · rw [if_neg due, if_neg due]
          rfl
      | _ => rfl
  · rw [exec_firstTransition hr, if_neg busy]
    rfl
  · obtain ⟨run, count⟩ := read_start (f := f) (inv := inv) (bit := s.bits 1) violations low high limit
    intro xs g
    obtain ⟨-, start, echo⟩ := afterSymbols_marks f (s.bits 1) xs
    refine ⟨start, echo, count, (next_running hr).trans ?_⟩
    simp only [locking, xs, run, Receiver.frame, Receiver.beforeDelimiter, Receiver.bodyBegun, Bool.and_self, if_true]
    rw [takeDelimiter, FrameInProgress.endAt, start]
    rfl
  · refine (next_running hr).trans ?_
    rw [if_pos active]
    simp only [idle]
    rfl
  · intro v
    refine ⟨giveVerdict f (quietVerdict s.seg.receiver) (fallQuiet (s.reach (s.seg.lastTransition + s.bits Config.quietBits))),
      (next_running hr).trans ?_, ?_⟩
    · rw [if_pos active]
      simp only [reading]
    · have given : v = quietVerdict s.seg.receiver := by
        dsimp only [v]
        cases receiver : s.seg.receiver with
        | quiet => exact absurd reading (by simp [receiver, Receiver.frame])
        | drain => exact absurd reading (by simp [receiver, Receiver.frame])
        | _ => rfl
      rw [given]
      refine giveVerdict_unsound f _ _ fun body inverted => ?_
      unfold quietVerdict
      split <;> simp
  · exact (next_running hr).trans (congrArg _ (if_pos quiet))
  · refine ⟨giveVerdict f .garbled _, (next_running hr).trans ?_, giveVerdict_unsound f .garbled _ (by simp)⟩
    have state : s.seg.receiver.frame = some f ∧ s.seg.receiver.beforeDelimiter = true := by
      rcases reading with ⟨clean, last, reading⟩ | ⟨last, read, reading⟩ <;> rw [reading] <;> exact ⟨rfl, rfl⟩
    obtain ⟨frame, before⟩ := state
    simp only [frame, before, if_true, closeFrame_open (v := .garbled) rfl]
    rfl
  · refine (next_running hr).trans ?_
    cases reading : s.seg.receiver with
    | locking f clean last => exact absurd reading (locking f clean last)
    | seeking f last read => exact absurd reading (seeking f last read)
    | _ => rfl

end Sys2Proof.Machine
end

section
/-! PROOFS. Answers (R32, R49-R57, R79-R81, R108, R117, R119). -/

-- One theorem after another: theorems checked side by side would each hold a thread.
set_option Elab.async false

namespace Sys2Proof.Machine

variable {s t u w : State} {r : Record} {f : FrameInProgress} {inv : Bool}

/-! ## The mirrors and the line whose CUE is on the line (R86, R149, R153) -/

/-- R86: one line is told of its point. -/
def tellMirror (k : Key) (q : Quality) (value : List Byte) (i : Fin 8) (t : State) : State :=
  match t.lines.records[i] with
  | .outputMirror l => if l.binding = k then putLine i (.outputMirror (l.shown q value)) t else t
  | _ => t

theorem notifyMirrors_tell (k : Key) (q : Quality) (value : List Byte) (s : State) :
    notifyMirrors k q value s = overAll allLines (tellMirror k q value) s := rfl

theorem tellMirror_mirror {k : Key} {q : Quality} {value : List Byte} {i : Fin 8} {l : MirrorLine}
    (h : t.lines.records[i] = .outputMirror l) : tellMirror k q value i t =
      if l.binding = k then putLine i (.outputMirror (l.shown q value)) t else t := by
  simp only [tellMirror, h]

theorem tellMirror_other {k : Key} {q : Quality} {value : List Byte} {i : Fin 8}
    (h : ∀ l, t.lines.records[i] ≠ .outputMirror l) : tellMirror k q value i t = t := by
  cases hl : t.lines.records[i] with
  | outputMirror l => exact absurd hl (h l)
  | _ => simp only [tellMirror, hl]

/-- R149: a line that is no INPUT has no CUE on the line. -/
theorem offLine_other {i : Fin 8} (hr : r.origin = .trigger i) (h : ∀ l, s.lines.records[i] ≠ .input l) : s.offLine r = s := by
  cases hl : s.lines.records[i] with
  | input l => exact absurd hl (h l)
  | _ => simp only [State.offLine, hr, hl]

theorem offLine_input {i : Fin 8} {l : InputLine} (hr : r.origin = .trigger i) (h : s.lines.records[i] = .input l) :
    s.offLine r = { s with lines := { s.lines with records := s.lines.records.set i (.input { l with cueOnLine := false }) } } := by
  simp only [State.offLine, hr, h]

/-- R149: only an INPUT line is changed, and it stays one. -/
theorem offLine_mirror (r : Record) (j : Fin 8) (s : State) (l : MirrorLine) :
    (s.offLine r).lines.records[j] = .outputMirror l ↔ s.lines.records[j] = .outputMirror l := by
  cases hr : r.origin with
  | trigger i =>
    by_cases input : ∃ l, s.lines.records[i] = .input l
    · obtain ⟨x, hx⟩ := input
      rw [offLine_input hr hx]
      change (s.lines.records.set i _)[j] = _ ↔ _
      rw [set_getElem_line]
      by_cases same : j = i
      · subst same
        rw [if_pos rfl, hx]
        simp
      · rw [if_neg same]
    · rw [offLine_other hr fun l hl => input ⟨l, hl⟩]
  | _ => simp only [State.offLine, hr]

theorem putMirror_offLine {j : Fin 8} {l m : MirrorLine} (h : t.lines.records[j] = .outputMirror l) :
    (putLine j (.outputMirror m) t).offLine r = putLine j (.outputMirror m) (t.offLine r) := by
  cases hr : r.origin with
  | trigger i =>
    by_cases input : ∃ l, t.lines.records[i] = .input l
    · obtain ⟨x, hx⟩ := input
      have apart : i ≠ j := fun same => by
        subst same
        rw [h] at hx
        cases hx
      have stays : (putLine j (.outputMirror m) t).lines.records[i] = .input x := by
        rw [putLine_records, if_neg apart, hx]
      have mine : ∀ y, (t.lines.records.set i y)[j] = t.lines.records[j] := fun y => by
        rw [set_getElem_line, if_neg apart.symm]
      rw [offLine_input hr hx, offLine_input hr stays]
      unfold putLine
      dsimp only
      rw [mine]
      refine congrArg (fun records => t.setLines { records := records, pins := _ }) ?_
      exact Vector.set_comm _ _ fun same => apart (Fin.ext same.symm)
    · rw [offLine_other hr fun l hl => input ⟨l, hl⟩, offLine_other hr]
      intro l hl
      rw [putLine_records] at hl
      split at hl
      · cases hl
      · exact input ⟨l, hl⟩
  | outbound x => simp only [State.offLine, hr]; rfl
  | _ => simp only [State.offLine, hr]

theorem tellMirror_offLine (r : Record) (k : Key) (q : Quality) (value : List Byte) (j : Fin 8) (t : State) :
    (tellMirror k q value j t).offLine r = tellMirror k q value j (t.offLine r) := by
  by_cases mirror : ∃ l, t.lines.records[j] = .outputMirror l
  · obtain ⟨l, hl⟩ := mirror
    rw [tellMirror_mirror hl, tellMirror_mirror ((offLine_mirror r j t l).2 hl), ← putMirror_offLine hl,
      apply_ite (State.offLine r)]
  · rw [tellMirror_other fun l hl => mirror ⟨l, hl⟩,
      tellMirror_other fun l hl => mirror ⟨l, (offLine_mirror r j t l).1 hl⟩]

theorem overAll_commutes {α : Type} {g : State → State} {step : α → State → State} (h : ∀ x t, g (step x t) = step x (g t))
    (xs : List α) (s : State) : g (overAll xs step s) = overAll xs step (g s) := by
  induction xs generalizing s with
  | nil => rfl
  | cons x xs ih => rw [overAll_cons, overAll_cons, ih, h]

theorem notifyMirrors_offLine (r : Record) (k : Key) (q : Quality) (value : List Byte) (s : State) :
    (notifyMirrors k q value s).offLine r = notifyMirrors k q value (s.offLine r) := by
  rw [notifyMirrors_tell, notifyMirrors_tell]
  exact overAll_commutes (tellMirror_offLine r k q value) allLines s

theorem tellMirror_setTxn (k : Key) (q : Quality) (value : List Byte) (x : TransactionUnit) (j : Fin 8) (t : State) :
    (tellMirror k q value j t).setTxn x = tellMirror k q value j (t.setTxn x) := by
  cases hl : t.lines.records[j] with
  | outputMirror l =>
    rw [tellMirror_mirror hl, tellMirror_mirror (t := t.setTxn x) hl, apply_ite (fun u : State => u.setTxn x)]
    rfl
  | _ => rw [tellMirror_other (by simp [hl]), tellMirror_other (t := t.setTxn x) (by simp [State.setTxn, hl])]

theorem notifyMirrors_setTxn (k : Key) (q : Quality) (value : List Byte) (x : TransactionUnit) (s : State) :
    (notifyMirrors k q value s).setTxn x = notifyMirrors k q value (s.setTxn x) := by
  rw [notifyMirrors_tell, notifyMirrors_tell]
  exact overAll_commutes (g := fun u => u.setTxn x) (tellMirror_setTxn k q value x) allLines s

theorem offLine_setPoints (r : Record) (ps : List Point) (s : State) : (s.setPoints ps).offLine r = (s.offLine r).setPoints ps := by
  unfold State.offLine State.setPoints
  cases r.origin with
  | trigger i =>
    dsimp only
    split <;> rfl
  | _ => rfl

theorem offLine_setAttention (r : Record) (xs : List Nat) (s : State) :
    (s.setAttention xs).offLine r = (s.offLine r).setAttention xs := by
  unfold State.offLine State.setAttention
  cases r.origin with
  | trigger i =>
    dsimp only
    split <;> rfl
  | _ => rfl

/-! ## What the recipients of an answer do does not bear on the record and its owner (R35) -/

/-- A change that is of no concern to the roster, the cache and the attention list, nor any of theirs to it. -/
structure Aside (g : State → State) : Prop where
  sched : ∀ u, (g u).sched = u.sched
  roster : ∀ u, (g u).roster = u.roster
  points : ∀ u, (g u).points = u.points
  attention : ∀ u, (g u).attention = u.attention
  setEntry : ∀ u a e, g (u.setEntry a e) = (g u).setEntry a e
  setPoints : ∀ u ps, g (u.setPoints ps) = (g u).setPoints ps
  setAttention : ∀ u xs, g (u.setAttention xs) = (g u).setAttention xs
  raising : ∀ u rs, g (u.raising rs) = (g u).raising rs
  mirrors : ∀ k q value u, g (notifyMirrors k q value u) = notifyMirrors k q value (g u)

/-- R35: what the recipients find when a record ends. -/
def State.delivering (r : Record) (s : State) : State := (s.recordEnded r).offLine r

/-- R35, R107, R149: that a record has ended is of no concern to them. -/
theorem delivering_aside (r : Record) : Aside (State.delivering r) where
  sched u := by rw [State.delivering, offLine_frame]; rfl
  roster u := by rw [State.delivering, offLine_frame]; rfl
  points u := by rw [State.delivering, offLine_frame]; rfl
  attention u := by rw [State.delivering, offLine_frame]; rfl
  setEntry u a e := by
    rw [State.delivering, State.delivering, State.recordEnded, setEntry_txn, ← setTxn_setEntry, offLine_setEntry]
    rfl
  setPoints u ps := offLine_setPoints r ps (u.recordEnded r)
  setAttention u xs := offLine_setAttention r xs (u.recordEnded r)
  raising u rs := by
    have txn : (u.raising rs).txn = u.txn := by rw [raising_of (s := u) rs rfl rfl]
    rw [State.delivering, State.delivering, State.recordEnded, txn, ← raising_setTxn, offLine_raising]
    rfl
  mirrors k q value u := by
    have txn : (notifyMirrors k q value u).txn = u.txn := by rw [(notifyMirrors_cacheOnly k q value u).1.rest]
    rw [State.delivering, State.delivering, State.recordEnded, txn, notifyMirrors_setTxn, notifyMirrors_offLine]
    rfl

section
variable {g : State → State} (h : Aside g)
include h

theorem Aside.entry (u : State) (a : Nat) : (g u).entry a = u.entry a := entry_congr (h.roster u) a

theorem Aside.stationActive (u : State) (a : Nat) : (g u).stationActive a = u.stationActive a := by
  rw [State.stationActive, h.entry, State.stationActive]

theorem Aside.raiseReport (u : State) (k : ReportKind) (body : List Byte) :
    g (raiseReport k body u) = raiseReport k body (g u) := h.raising u [(k, body)]

theorem Aside.turning (u : State) (a : Nat) (inv : Bool) : g (u.turning a inv) = (g u).turning a inv := by
  unfold State.turning
  rw [apply_ite g, h.raising, h.setEntry, h.entry]

theorem Aside.heardFrom (u : State) (a : Nat) (inv : Bool) : g (u.heardFrom a inv) = (g u).heardFrom a inv := by
  unfold State.heardFrom
  rw [h.turning, apply_ite g, h.setEntry, h.entry, h.stationActive, h.sched]

theorem Aside.attending (u : State) (a : Nat) (attention : Bool) : g (u.attending a attention) = (g u).attending a attention := by
  have joins : g { u with attention := u.attention ++ [a] } = { g u with attention := (g u).attention ++ [a] } := by
    rw [h.attention]
    exact h.setAttention u _
  unfold State.attending
  rw [apply_ite g, joins, h.attention, h.stationActive]

theorem Aside.changePoint (u : State) (f : Point → Point) (p : Point) : g (changePoint f p u) = changePoint f p (g u) := by
  unfold Machine.changePoint
  dsimp only
  rw [apply_ite g, h.mirrors, apply_ite g, h.raiseReport, h.setPoints, h.points]

theorem Aside.takePub (u : State) (a n : Nat) (status : Byte) (value : List Byte) :
    g (takePub a n status value u) = takePub a n status value (g u) := by
  have point : (g u).point { address := a, number := n } = u.point { address := a, number := n } := by
    rw [State.point, h.points, State.point]
  unfold Machine.takePub
  rw [point, h.stationActive, h.sched]
  cases u.point { address := a, number := n } with
  | none => rfl
  | some p =>
    dsimp only
    rw [apply_ite g, apply_ite g, apply_ite g, h.changePoint, h.changePoint]

theorem Aside.publisherActive (u : State) (a : Nat) : g (publisherActive a u) = publisherActive a (g u) := by
  have owned : (g u).pointsOf a = u.pointsOf a := by rw [State.pointsOf, h.points, State.pointsOf]
  unfold Machine.publisherActive changePoints
  rw [apply_ite g, h.sched, owned, overAll_commutes fun p t => h.changePoint t _ p]

theorem Aside.becomeActive (u : State) (a : Nat) (i : Identity) (rejoin admitted : Bool) :
    g (becomeActive a i rejoin admitted u) = becomeActive a i rejoin admitted (g u) := by
  unfold Machine.becomeActive
  dsimp only
  rw [h.raiseReport, h.publisherActive, h.setEntry, h.entry, h.sched]

theorem Aside.becomeHeld (u : State) (a : Nat) (i : Identity) (reason : HeldReason) :
    g (becomeHeld a i reason u) = becomeHeld a i reason (g u) := by
  unfold Machine.becomeHeld
  dsimp only
  rw [h.raiseReport, h.setEntry, h.entry]

theorem Aside.takeIdentity (u : State) (a : Nat) (i : Identity) : g (takeIdentity a i u) = takeIdentity a i (g u) := by
  have holder : holderOf a i (g u) = holderOf a i u := by simp only [holderOf, h.entry]
  unfold Machine.takeIdentity
  rw [holder, h.entry, h.sched]
  cases holderOf a i u with
  | some b =>
    dsimp only
    rw [h.raiseReport, h.entry]
  | none =>
    dsimp only
    rw [apply_ite g, h.becomeActive]
    refine if_congr Iff.rfl rfl ?_
    cases (u.entry a).expected with
    | some x =>
      dsimp only
      rw [apply_ite g, h.becomeActive, h.becomeHeld]
    | none =>
      cases u.sched.params.admission with
      | opened => exact h.becomeActive ..
      | closed => exact h.becomeHeld ..

end

end Sys2Proof.Machine
end

section
/-! PROOFS. Records that are answered (R32, R35, R49-R57, R79-R81, R108, R117, R119). -/

-- One theorem after another: theorems checked side by side would each hold a thread.
set_option Elab.async false

namespace Sys2Proof.Machine

variable {s t u w : State} {r : Record} {f : FrameInProgress} {inv : Bool}

/-! ## The end of a record that was answered (R35, R57, R117) -/

theorem attentionStep_attending (r : Record) (ans : Answer) (attention inv : Bool) (s : State) :
    attentionStep r (.answered ans attention inv) s = s.attending r.target attention := by
  unfold State.attending
  cases attention with
  | false => exact (if_neg (by simp)).symm
  | true => exact if_congr (by simp) rfl rfl

/-- R35: an outcome's delivery to the roster, the cache and the attention list. -/
def State.answering (r : Record) (o : TxnOutcome) (s : State) : State := attentionStep r o (cacheStep r o (rosterStep r o s))

theorem endRecord_delivers (o : TxnOutcome) (held : s.txn.record = some r)
    (aside : (s.answering r o).delivering r = (s.delivering r).answering r o) : endRecord o s =
      (ownerStep r o (cueOwned r s) ((s.answering r o).delivering r)).discarded := by
  unfold endRecord
  rw [held, aside]
  dsimp only
  rw [clearOnLine_eq]
  rfl

/-! ## The answer to a CUE (R79-R81) -/

/-- R57, R79, R117: what a PUB makes of the roster, the cache and the attention list. -/
theorem answering_pub (kind : r.kind = .cue) (n : Nat) (status : Byte) (value : List Byte) (attention inv : Bool) (s : State) :
    s.answering r (.answered (.pub n status value) attention inv) =
      (takePub r.target n status value (s.heardFrom r.target inv)).attending r.target attention := by
  unfold State.answering
  rw [attentionStep_attending]
  unfold cacheStep rosterStep
  rw [kind]
  rfl

/-- R149, R153: mirrors leave the lines whose CUE may be on the line alone. -/
theorem cueOwned_tell (r : Record) (k : Key) (q : Quality) (value : List Byte) (s : State) :
    cueOwned r (notifyMirrors k q value s) = cueOwned r s := by
  rw [notifyMirrors_tell]
  refine overAll_keeps (P := fun t => cueOwned r t = cueOwned r s) rfl fun j _ t ht => ?_
  rw [← ht]
  by_cases mirror : ∃ l, t.lines.records[j] = .outputMirror l
  · obtain ⟨l, hl⟩ := mirror
    rw [tellMirror_mirror hl]
    split
    · unfold cueOwned
      cases r.origin with
      | trigger i =>
        dsimp only
        rw [putLine_records]
        by_cases same : i = j
        · subst same
          rw [if_pos rfl, hl]
        · rw [if_neg same]
      | _ => rfl
    · rfl
  · rw [tellMirror_other fun l hl => mirror ⟨l, hl⟩]

theorem cueOwned_changePoint (r : Record) (h : Point → Point) (p : Point) (s : State) :
    cueOwned r (changePoint h p s) = cueOwned r s := by
  have told : cueOwned r (if watched p (h p) then
      raiseReport .pointChanged (pointChangedBody (h p)) (s.setPoints (replacePoint s.points (h p)))
      else s.setPoints (replacePoint s.points (h p))) = cueOwned r s := by
    refine cueOwned_congr r ?_
    split
    · exact raiseReport_lines ..
    · rfl
  unfold changePoint
  dsimp only
  split
  · exact told
  · rw [cueOwned_tell, told]

theorem cueOwned_takePub (r : Record) (a n : Nat) (status : Byte) (value : List Byte) (s : State) :
    cueOwned r (takePub a n status value s) = cueOwned r s := by
  unfold takePub
  split
  · rfl
  · split
    · rfl
    · split
      · exact cueOwned_changePoint ..
      · split
        · exact cueOwned_changePoint ..
        · rfl

theorem turning_keeps (a : Nat) (inv : Bool) (s : State) : s.turning a inv = { s with
    roster := (s.turning a inv).roster, reports := (s.turning a inv).reports, conds := (s.turning a inv).conds } := by
  unfold State.turning
  split
  · rfl
  · rw [raising_of (s := s.setEntry a _) _ rfl rfl, setEntry_frame]

theorem heardFrom_keeps (a : Nat) (inv : Bool) (s : State) : s.heardFrom a inv = { s with
    roster := (s.heardFrom a inv).roster, reports := (s.heardFrom a inv).reports, conds := (s.heardFrom a inv).conds } := by
  unfold State.heardFrom
  rw [turning_keeps]
  split
  · rw [setEntry_frame]
  · rfl

/-- A station stays ACTIVE, or not, when its entry keeps its state. -/
theorem setEntry_active {a : Nat} {e : RosterEntry} (h : e.state = (s.entry a).state) :
    (s.setEntry a e).stationActive a = s.stationActive a := by
  rw [State.stationActive, entry_setEntry, State.stationActive]
  split
  · rw [h]
  · rfl

theorem turning_active (a : Nat) (inv : Bool) (s : State) : (s.turning a inv).stationActive a = s.stationActive a := by
  unfold State.turning
  split
  · rfl
  · rw [← setEntry_active (s := s) (a := a) (e := { s.entry a with inverted := inv }) rfl, State.stationActive, State.stationActive]
    refine congrArg (fun e : RosterEntry => e.state == .active) (entry_congr ?_ a)
    rw [raising_of (s := s.setEntry a _) _ rfl rfl]

theorem heardFrom_active (a : Nat) (inv : Bool) (s : State) : (s.heardFrom a inv).stationActive a = s.stationActive a := by
  unfold State.heardFrom
  rw [turning_active]
  split
  · exact setEntry_active rfl
  · rfl

/-- R149: an answer spends the trigger whose CUE it answers; a slot has nothing to settle. -/
theorem ownerStep_cue (origin : (∃ o, r.origin = .slot o) ∨ ∃ i, r.origin = .trigger i) (ans : Answer) (attention inv : Bool)
    (s : State) : ownerStep r (.answered ans attention inv) (cueOwned r s) (s.offLine r) = s.ownerActs r none := by
  rcases origin with ⟨o, origin⟩ | ⟨i, origin⟩
  · simp only [ownerStep, origin, slotOutcome, State.offLine, State.ownerActs]
  · refine Eq.trans ?_ (triggerOutcome_noAnswer origin s none)
    simp only [ownerStep, origin]

/-- R57, R79-R81, R117, R149: the answer to a CUE. -/
theorem endRecord_pub (held : s.txn.record = some r) (kind : r.kind = .cue)
    (origin : (∃ o, r.origin = .slot o) ∨ ∃ i, r.origin = .trigger i) (n : Nat) (status : Byte) (value : List Byte)
    (attention inv : Bool) : endRecord (.answered (.pub n status value) attention inv) s =
      (((takePub r.target n status value (s.heardFrom r.target inv)).attending r.target attention).ownerActs r none).discarded := by
  have aside := delivering_aside r
  have answers := answering_pub kind n status value attention inv
  have lines : ((takePub r.target n status value (s.heardFrom r.target inv)).attending r.target attention).lines =
      (takePub r.target n status value (s.heardFrom r.target inv)).lines := by
    unfold State.attending
    split <;> rfl
  rw [endRecord_delivers _ held (by rw [answers, answers, aside.attending, aside.takePub, aside.heardFrom]), answers]
  have owned : cueOwned r s =
      cueOwned r ((takePub r.target n status value (s.heardFrom r.target inv)).attending r.target attention) := by
    have heard : (s.heardFrom r.target inv).lines = s.lines := by rw [heardFrom_keeps]
    rw [cueOwned_congr r lines, cueOwned_takePub, cueOwned_congr r heard]
  rw [owned]
  generalize (takePub r.target n status value (s.heardFrom r.target inv)).attending r.target attention = t
  refine Eq.trans ?_ (ownerActs_discarded r { r with phase := .ended } none t)
  exact congrArg State.discarded (ownerStep_cue origin _ attention inv (t.recordEnded r))

/-! ## What a PUB makes of its point (R79-R81) -/

/-- R80, R81: a PUB of the declared length is stored, and in RUN one of another length marks its point. -/
def Point.published (mode : Mode) (cycle : Word32) (p : Point) (status : Byte) (value : List Byte) (q : Point) : Point :=
  if q.key ≠ p.key then q
  else if value.length = p.length then
    { q with value := value, status := status, age := 0, updates := q.updates + 1
             lastUpdate := some cycle, quality := if mode = .run then .good else q.quality }
  else if mode = .run then { q with quality := .badLength }
  else q

/-- R70: with distinct keys, a record is the only one of its key. -/
theorem points_filter_key {p : Point} (hd : s.keysDistinct) (mem : p ∈ s.points) :
    s.points.filter (fun q => q.key == p.key) = [p] := by
  have same : ∀ q ∈ s.points, (q.key == p.key) = (q == p) := fun q hq => by
    refine Bool.eq_iff_iff.2 ?_
    rw [beq_iff_eq, beq_iff_eq]
    exact ⟨fun keys => List.inj_on_of_nodup_map hd hq mem keys, congrArg Point.key⟩
  rw [List.filter_congr same, List.filter_beq, List.count_eq_one_of_mem (List.Nodup.of_map _ hd) mem, List.replicate_one]

/-- R83-R86: one happening at one point of the cache. -/
theorem changePoint_becomes {f g : Point → Point} {p : Point} (hd : s.keysDistinct) (mem : p ∈ s.points)
    (keys : ∀ q, (f q).key = q.key) (chosen : ∀ q ∈ s.points, q.key = p.key → g q = f q)
    (others : ∀ q ∈ s.points, q.key ≠ p.key → g q = q) : PointsBecome g s (changePoint f p s) := by
  have become := changePoints_become (sel := fun q => q.key == p.key) hd keys (fun q hq h => chosen q hq (by simpa using h))
    fun q hq h => others q hq (by simpa using h)
  rwa [points_filter_key hd mem] at become

theorem takePub_becomes {a n : Nat} {p : Point} (hd : s.keysDistinct) (active : s.stationActive a = true)
    (known : s.point { address := a, number := n } = some p) (status : Byte) (value : List Byte) :
    PointsBecome (p.published s.sched.mode s.sched.cycle status value) s (takePub a n status value s) := by
  obtain ⟨-, mem⟩ := point_some known
  have own : ∀ q ∈ s.points, q.key = p.key → q = p := fun q hq same => List.inj_on_of_nodup_map hd hq mem same
  unfold takePub
  rw [known]
  dsimp only
  rw [if_neg (by simp [active])]
  have other : ∀ q ∈ s.points, q.key ≠ p.key → p.published s.sched.mode s.sched.cycle status value q = q :=
    fun q _ apart => if_pos apart
  by_cases fits : value.length = p.length
  · rw [if_pos fits]
    refine changePoint_becomes hd mem (fun _ => rfl) (fun q hq same => ?_) other
    simp [Point.published, same, fits, storePub]
  · rw [if_neg fits]
    by_cases run : s.sched.mode = .run
    · rw [if_pos run]
      refine changePoint_becomes hd mem (fun _ => rfl) (fun q hq same => ?_) other
      simp [Point.published, same, fits, run, Point.withQuality]
    · rw [if_neg run]
      exact .same fun q hq => by simp [Point.published, fits, run]

/-! ## The answers to FETCH, SEND and ROLL (R49-R57, R108, R117, R119) -/

theorem answering_work (kind : r.kind = .fetch ∨ r.kind = .send) (ans : Answer) (attention inv : Bool) (s : State) :
    s.answering r (.answered ans attention inv) = (s.heardFrom r.target inv).attending r.target attention := by
  unfold State.answering
  rw [attentionStep_attending]
  unfold cacheStep rosterStep
  rcases kind with kind | kind <;> rw [kind] <;> rfl

theorem endRecord_work (held : s.txn.record = some r) (kind : r.kind = .fetch ∨ r.kind = .send) (ans : Answer)
    (attention inv : Bool) : endRecord (.answered ans attention inv) s = (ownerStep r (.answered ans attention inv)
      (cueOwned r s) (((s.heardFrom r.target inv).attending r.target attention).delivering r)).discarded := by
  have aside := delivering_aside r
  have answers := answering_work kind ans attention inv
  rw [endRecord_delivers _ held (by rw [answers, answers, aside.attending, aside.heardFrom]), answers]

/-- R119: the answer to a FETCH fills its reservation, or gives it back. -/
theorem endRecord_note (held : s.txn.record = some r) (kind : r.kind = .fetch) (origin : r.origin = .fetch)
    (payload : List Byte) (attention inv : Bool) :
    let u := (s.heardFrom r.target inv).attending r.target attention
    endRecord (.answered (.note payload) attention inv) s = State.discarded
      (if payload = [] then u.releasing
       else { u with reports := { u.reports with
         reservations := u.reports.reservations - 1
         unsent := u.reports.unsent ++
           [{ kind := .note, level := u.reports.levelOf .note, body := byteOf r.target :: payload, reserved := true }] } }) := by
  intro u
  have owner : ∀ o b, ownerStep r o b (u.delivering r) = fetchOutcome r.target o (u.recordEnded r) := fun o b => by
    simp only [ownerStep, origin, State.delivering, State.offLine]
  rw [endRecord_work held (.inl kind), owner]
  cases payload with
  | nil =>
    refine (congrArg State.discarded (releaseReservation_eq (u.recordEnded r))).trans ?_
    rw [if_pos rfl, State.recordEnded, releasing_setTxn]
    have txn : u.releasing.txn = u.txn := (congrArg State.txn (releasing_setTxn u.txn u) :)
    unfold State.discarded
    rw [txn]
    rfl
  | cons b bs => rfl

/-- R103: with distinct tags, a held message is found by its own. -/
theorem message_of_mem {m : Message} (hd : s.tagsDistinct) (mem : m ∈ s.outbound) : s.message m.tag = some m := by
  cases found : s.message m.tag with
  | none => exact absurd (List.find?_eq_none.1 found m mem) (by simp)
  | some x =>
    obtain ⟨tag, held⟩ := message_some found
    rw [List.inj_on_of_nodup_map hd held mem tag]

/-- R108: the answer to a SEND ends its message DELIVERED. -/
theorem endRecord_reply {m : Message} (held : s.txn.record = some r) (kind : r.kind = .send)
    (origin : r.origin = .outbound m.tag) (hd : s.tagsDistinct) (mem : m ∈ s.outbound) (tag result : Byte)
    (payload : List Byte) (attention inv : Bool) :
    let u := (s.heardFrom r.target inv).attending r.target attention
    endRecord (.answered (.reply tag result payload) attention inv) s = (u.settling [m] 0 (result :: payload)).discarded := by
  intro u
  have outbound : u.outbound = s.outbound := by
    have heard : (s.heardFrom r.target inv).outbound = s.outbound := by rw [heardFrom_keeps]
    change (State.attending r.target attention _).outbound = _
    unfold State.attending
    split
    · exact heard
    · exact heard
  have line : u.delivering r = changeMessage m.tag (fun x => { x with onLine := false }) (u.recordEnded r) := by
    simp only [State.delivering, State.offLine, origin]
    rfl
  have found : (u.recordEnded r).message m.tag = some m := message_of_mem (s := u.recordEnded r)
    (by rw [State.tagsDistinct]; exact outbound ▸ hd) (outbound ▸ mem)
  have some : (u.delivering r).message m.tag = some { m with onLine := false } := by
    rw [line, message_changed m.tag (f := fun x => { x with onLine := false }) fun _ => rfl, found]
    rfl
  have distinct : (u.delivering r).tagsDistinct := by
    rw [State.tagsDistinct, State.delivering, offLine_tags]
    change (u.outbound.map _).Nodup
    rw [outbound]
    exact hd
  rw [endRecord_work held (.inr kind)]
  change (ownerStep r _ _ (u.delivering r)).discarded = _
  simp only [ownerStep, origin, outboundOutcome, some]
  rw [settleMessage_settling _ _ _ distinct, line]
  have ends := settling_changed (s := u.recordEnded r) m (fun x => { x with onLine := false }) (fun _ => rfl) 0
    (result :: payload)
  exact (congrArg State.discarded ends :)

/-- R49-R54: the answer to a ROLL. -/
theorem endRecord_answer (held : s.txn.record = some r) (kind : r.kind = .roll) (origin : r.origin = .probe) (i : Identity)
    (attention inv : Bool) : endRecord (.answered (.answer i) attention inv) s =
      ((State.turning r.target inv (if (s.entry r.target).state = .vacant ∨ (s.entry r.target).state = .lost then
        takeIdentity r.target i s else s)).attending r.target attention).discarded := by
  have aside := delivering_aside r
  have answers : ∀ u : State, u.answering r (.answered (.answer i) attention inv) =
      (State.turning r.target inv (if (u.entry r.target).state = .vacant ∨ (u.entry r.target).state = .lost then
        takeIdentity r.target i u else u)).attending r.target attention := fun u => by
    unfold State.answering
    rw [attentionStep_attending]
    unfold cacheStep rosterStep
    rw [kind]
    refine congrArg (State.attending r.target attention) ?_
    rw [apply_ite (State.turning r.target inv)]
    rfl
  rw [endRecord_delivers _ held (by rw [answers, answers, aside.attending, aside.turning, apply_ite (State.delivering r),
    aside.takeIdentity, aside.entry]), answers]
  simp only [ownerStep, origin, State.delivering, State.offLine]
  rfl

end Sys2Proof.Machine
end

section
/-! PROOFS. Answers received whole (R32, R49-R57, R79-R81, R108, R117, R119). -/

-- One theorem after another: theorems checked side by side would each hold a thread.
set_option Elab.async false

namespace Sys2Proof.Machine

variable {s t u w : State} {r : Record} {f : FrameInProgress} {inv : Bool}

/-! ## A frame that is the answer (R32, R42) -/

theorem answer_kind {k flags : Nat} (hk : k < 16) (hf : flags < 8) (attention : Bool) :
    (byteOf (16 * k + 2 * flags + if attention then 1 else 0)).toNat / 16 = k := by
  have low : (if attention then 1 else 0 : Nat) ≤ 1 := by split <;> omega
  rw [toNat_byteOf (by omega)]
  omega

/-- R42: the other three flag bits do not bear on the attention flag. -/
theorem answer_attention (k flags : Nat) (attention : Bool) :
    (byteOf (16 * k + 2 * flags + if attention then 1 else 0)).getLsbD 0 = attention := by
  have low : (16 * k + 2 * flags + if attention then 1 else 0) % 2 = if attention then 1 else 0 := by split <;> omega
  rw [byteOf, BitVec.getLsbD_ofNat, Nat.testBit_zero, low]
  cases attention <;> rfl

/-- R42: bits 7 and 6 of the address byte are ignored. -/
theorem answer_address {top a : Nat} (ht : top < 4) (ha : a ≤ 62) : (byteOf (64 * top + a)).toNat % 64 = a := by
  rw [toNat_byteOf (by omega)]
  omega

/-- R38: no answer is foreign traffic. -/
theorem sighting_answer {e : Expected} {body : List Byte} (h : e.metBy body) (s : State) : s.sighting body = s := by
  have kind : (body.getD 0 0).toNat / 16 = frameKindCode e.kind := by
    cases e with
    | _ =>
      obtain ⟨code, -⟩ := h
      exact code
  have answers : frameKindCode e.kind ∉ [1, 2, 4, 6, 8] := by cases e <;> simp [Expected.kind, frameKindCode]
  unfold State.sighting
  exact if_neg (kind ▸ answers)

/-- R31, R32: the frame that a record awaits. -/
theorem hear_answered {e : Expected} {body : List Byte} (receiving : Receiving r f inv s) (low : 2 ≤ body.length)
    (high : body.length ≤ 64) (expected : r.expected = some e) (met : e.metBy body) :
    exec (.segmentFrameReceived (polarised inv (bodySymbols body))) s = .next
      (endRecord (.answered (e.answerOf body) (bodyAttention body) inv) (s.frameEnded f (body.length + 2))) := by
  obtain ⟨hr, held, phase, reading, echo⟩ := receiving
  have judged : judgeAnswer r.expected body inv = .answered (e.answerOf body) (bodyAttention body) inv := by
    rw [expected]
    exact if_pos ((matchesBody_iff e body).2 met)
  rw [hear_good hr reading low high, giveVerdict_receiving (s := s.frameEnded f (body.length + 2)) echo held phase, judged,
    sighting_answer met]

/-- R27: only slots and triggers ask for a PUB. -/
theorem cue_origin (law : s.RecordLaw) (held : s.txn.record = some r) (kind : r.kind = .cue) :
    (∃ o, r.origin = .slot o) ∨ ∃ i, r.origin = .trigger i := by
  have law := law r held
  dsimp only at law
  cases origin : r.origin with
  | slot o => exact .inl ⟨o, rfl⟩
  | trigger i => exact .inr ⟨i, rfl⟩
  | _ =>
    rw [origin] at law
    exact absurd (kind.symm.trans law.1) (by simp)

/-! ## The answer to a CUE, and the reports of its point (R79-R85) -/

theorem takePub_ignored {a n : Nat} (status : Byte) (value : List Byte)
    (h : s.point { address := a, number := n } = none ∨ s.stationActive a = false) : takePub a n status value s = s := by
  unfold takePub
  cases known : s.point { address := a, number := n } with
  | none => rfl
  | some p =>
    have gone : s.stationActive a = false := h.resolve_left (by simp [known])
    exact if_pos (by simp [gone])

/-- R125: one report raised, and nothing else of reports. -/
theorem RaisedExactly.single {k : ReportKind} {body : List Byte} (h : RaisedExactly [(k, body)] s t) :
    ReportRaised k body s t := by
  have raised := raiseReport_raised k body s
  have reports : t.reports = (raiseReport k body s).reports := h.reports
  have loss : t.conds.reportLoss = (raiseReport k body s).conds.reportLoss := by
    rw [h.conds]
    rfl
  unfold ReportRaised at raised ⊢
  rwa [reports, loss]

theorem RaisedExactly.nothing (h : RaisedExactly [] s t) : t.reports = s.reports ∧ t.conds = s.conds :=
  ⟨h.reports, h.conds⟩

/-! ## The answer to a ROLL (R49-R53) -/

theorem takeIdentity_joins {a : Nat} {i : Identity} (alone : holderOf a i s = none)
    (joins : (s.entry a).seen = some i ∨ (s.entry a).expected = some i ∨
      ((s.entry a).expected = none ∧ s.sched.params.admission = .opened)) :
    takeIdentity a i s = becomeActive a i (decide ((s.entry a).seen = some i)) false s := by
  unfold takeIdentity
  rw [alone]
  dsimp only
  by_cases seen : (s.entry a).seen = some i
  · rw [if_pos seen, decide_eq_true seen]
  · rw [if_neg seen, decide_eq_false seen]
    rcases joins.resolve_left seen with expected | ⟨expected, opened⟩
    · simp only [expected, if_true]
    · simp only [expected, opened]

theorem takeIdentity_held {a : Nat} {i : Identity} (alone : holderOf a i s = none)
    (joins : ¬ ((s.entry a).seen = some i ∨ (s.entry a).expected = some i ∨
      ((s.entry a).expected = none ∧ s.sched.params.admission = .opened))) :
    takeIdentity a i s = (s.setEntry a { s.entry a with state := .held, seen := some i }).raising [(.deviceHeld,
      [byteOf a] ++ identityBytes i ++ [if (s.entry a).expected = none then 0 else 1] ++
        optIdentityBytes (s.entry a).expected)] := by
  obtain ⟨seen, expected, closed⟩ : _ ∧ _ ∧ _ := by simpa only [not_or] using joins
  unfold takeIdentity
  rw [alone]
  dsimp only
  rw [if_neg seen]
  cases asks : (s.entry a).expected with
  | some x =>
    dsimp only
    rw [if_neg fun same => expected (asks.trans (congrArg some same)), becomeHeld, asks]
    rfl
  | none =>
    cases admission : s.sched.params.admission with
    | opened => exact absurd ⟨asks, admission⟩ closed
    | closed =>
      unfold becomeHeld
      dsimp only
      rw [asks, if_neg (by simp), if_pos rfl]
      rfl

/-- R50: the other ACTIVE or HELD entry that carries an identity. -/
theorem holderOf_eq (a : Nat) (i : Identity) (s : State) : holderOf a i s = stationAddresses.find? fun b =>
    decide (b ≠ a ∧ ((s.entry b).state = .active ∨ (s.entry b).state = .held) ∧ (s.entry b).seen = some i) := by
  unfold holderOf
  refine congrArg (fun p => stationAddresses.find? p) (funext fun b => Bool.eq_iff_iff.2 ?_)
  simp [and_assoc]

/-! ## Answers end to end -/

/-- R79-R81: the statement of the answer to a CUE, at the state in which its frame has ended. -/
theorem endRecord_published {a n : Nat} {p : Point} {status : Byte} {value : List Byte} {attention : Bool}
    (held : s.txn.record = some r) (kind : r.kind = .cue) (target : r.target = a)
    (origin : (∃ o, r.origin = .slot o) ∨ ∃ i, r.origin = .trigger i) (hd : s.keysDistinct)
    (active : s.stationActive a = true) (known : s.point { address := a, number := n } = some p) :
    let u := s.heardFrom a inv
    let store := p.published s.sched.mode s.sched.cycle status value
    ∃ t : State, endRecord (.answered (.pub n status value) attention inv) s =
        ((t.attending a attention).ownerActs r none).discarded ∧
      t = { u with
            points := s.points.map store, reports := t.reports
            conds := { u.conds with reportLoss := t.conds.reportLoss }, lines := t.lines } ∧
      MirrorsOnly u t ∧ MirrorsFollow u t ∧
      (changeReports store [p] = [] → t.reports = u.reports ∧ t.conds = u.conds) ∧
      ∀ x, changeReports store [p] = [x] → ReportRaised x.1 x.2 u t := by
  subst target
  intro u store
  have points : u.points = s.points := by
    change (s.heardFrom r.target inv).points = _
    rw [heardFrom_keeps]
  have sched : u.sched = s.sched := by
    change (s.heardFrom r.target inv).sched = _
    rw [heardFrom_keeps]
  have distinct : u.keysDistinct := by rwa [State.keysDistinct, points]
  have found : u.point { address := r.target, number := n } = some p := by rwa [State.point, points]
  have become := takePub_becomes distinct ((heardFrom_active r.target inv s).trans active) found status value
  rw [sched] at become
  change PointsBecome store u _ at become
  have raised : RaisedExactly (changeReports store [p]) u (takePub r.target n status value u) := by
    have whole := changeReports_filter (f := store) (g := store) (sel := fun q => q.key == p.key) (ps := u.points)
      (fun _ _ _ => rfl) fun q _ apart => if_pos (by simpa using apart)
    rw [points_filter_key distinct (point_some found).2] at whole
    rw [whole]
    exact become.raised
  have rest := become.cache.rest
  have conds := become.raised.conds
  refine ⟨takePub r.target n status value u, endRecord_pub held kind origin n status value attention inv, ?_,
    become.cache.mirrors, become.follow, fun none => ?_, fun x one => ?_⟩
  · have loss : ({ u.conds with
        reportLoss := (takePub r.target n status value u).conds.reportLoss } : ConditionSet) =
        (takePub r.target n status value u).conds := by rw [conds]
    rw [become.points, points] at rest
    rw [loss]
    exact rest
  · rw [none] at raised
    exact raised.nothing
  · rw [one] at raised
    exact raised.single

/-- R53, R78: the statement of a station that joins by its answer. -/
theorem becomeActive_joined {a : Nat} (i : Identity) (rejoin : Bool) (hd : s.keysDistinct) :
    let wakes := Point.sourced s.sched.mode a
    let t := becomeActive a i rejoin false s
    t = { s with
          roster := (s.setEntry a { s.entry a with
            state := .active, seen := some i, miss := 0, clash := 0, lastHeard := some s.sched.cycle }).roster
          points := s.points.map wakes, reports := t.reports, conds := t.conds, lines := t.lines } ∧
      RaisedExactly (changeReports wakes s.points ++ [(.deviceJoined, [byteOf a] ++ identityBytes i ++ [flagByte rejoin, 0])]) s t ∧
      MirrorsOnly s t ∧ MirrorsFollow s t := by
  intro wakes t
  obtain ⟨u, become, joined⟩ := becomeActive_becomes a i rejoin false hd
  change t = _ at joined
  rw [joined]
  have rest := become.rest_raise .deviceJoined ([byteOf a] ++ identityBytes i ++ [flagByte rejoin, flagByte false])
  have raised := become.raised
  rw [setEntry_points] at raised
  rw [setEntry_frame] at rest
  exact ⟨rest, (raised.snoc .deviceJoined _).congr (setEntry_reports ..).symm (setEntry_conds ..).symm rfl rfl,
    become.cache.mirrors.congr (setEntry_lines ..).symm (raiseReport_lines ..),
    become.follow.congr (setEntry_lines ..).symm (setEntry_points ..).symm (raiseReport_lines ..) (raiseReport_points ..)⟩

/-- Settles O48: each answer, received whole. -/
theorem pubAnswerIsStored : Obligations.PubAnswerIsStored := by
  intro s r f inv receiving low high keys tags a hear flags top hf ht flag address
  have held : ∀ n, (s.frameEnded f n).txn.record = some r := fun _ => receiving.held
  have kindOf : ∀ k attention, k < 16 → (flag k attention).toNat / 16 = k := fun k attention hk => answer_kind hk hf attention
  have asks : ∀ k attention, (flag k attention).getLsbD 0 = attention := fun k => answer_attention k flags
  have addressed : address.toNat % 64 = a := answer_address ht high
  have answered : ∀ (e : Expected) (k : Nat) (attention : Bool) (rest : List Byte), r.expected = some e → k < 16 →
      rest.length ≤ 62 → e.metBy ([flag k attention, address] ++ rest) → hear ([flag k attention, address] ++ rest) = .next
        (endRecord (.answered (e.answerOf ([flag k attention, address] ++ rest)) attention inv)
          (s.frameEnded f (rest.length + 4))) := fun e k attention rest expected hk short met => by
    have heard := hear_answered receiving (body := [flag k attention, address] ++ rest) (by simp) (by simp; omega) expected met
    have length : ([flag k attention, address] ++ rest).length + 2 = rest.length + 4 := by simp
    have flagged : bodyAttention ([flag k attention, address] ++ rest) = attention := asks k attention
    rwa [length, flagged] at heard
  have published : ∀ n attention status value, r.expected = some (.pub a n) → n ≤ 15 → 1 ≤ value.length →
      value.length ≤ 32 → hear ([flag 3 attention, address, byteOf n, status] ++ value) = .next
        (endRecord (.answered (.pub n status value) attention inv) (s.frameEnded f (value.length + 6))) :=
    fun n attention status value expected hn some short => by
      refine answered (.pub a n) 3 attention (byteOf n :: status :: value) expected (by omega) (by simp; omega) ?_
      refine ⟨kindOf 3 attention (by omega), addressed, ?_, ?_, toNat_byteOf (by omega)⟩
      · simp; omega
      · simp; omega
  refine ⟨fun n attention status value p law kind expected hn active known some short => ?_,
    fun n attention status value law kind expected hn ignored some short => ?_,
    fun attention payload origin kind expected short => ?_,
    fun m attention result payload origin kind expected mem short => ?_,
    fun attention i origin kind expected => ?_⟩
  · rw [published n attention status value expected hn some short]
    obtain ⟨t, ended, rest⟩ := endRecord_published (s := s.frameEnded f (value.length + 6)) (inv := inv) (attention := attention)
      (value := value) (status := status) (held _) kind rfl (cue_origin law receiving.held kind) keys active known
    exact ⟨t, congrArg Host.Outcome.next ended, rest⟩
  · have unknown : ((s.frameEnded f (value.length + 6)).heardFrom a inv).point { address := a, number := n } = none ∨
        ((s.frameEnded f (value.length + 6)).heardFrom a inv).stationActive a = false := by
      rw [heardFrom_active]
      refine ignored.imp_left fun absent => ?_
      rw [heardFrom_keeps]
      exact absent
    rw [published n attention status value expected hn some short,
      endRecord_pub (held _) kind (cue_origin law receiving.held kind), takePub_ignored status value unknown]
  · rw [answered (.note a) 7 attention payload expected (by omega) (by omega)
      ⟨kindOf 7 attention (by omega), addressed, by simp, by simp; omega⟩]
    exact congrArg Host.Outcome.next (endRecord_note (held _) kind origin payload attention inv)
  · have heard := answered (.reply a m.tag) 9 attention (m.tag :: result :: payload) expected (by omega) (by simp; omega)
      ⟨kindOf 9 attention (by omega), addressed, by simp, by simp; omega, rfl⟩
    refine heard.trans (congrArg Host.Outcome.next ?_)
    exact endRecord_reply (held _) kind origin tags mem m.tag result payload attention inv
  · intro u e carries ends answer
    have heard : answer = .next (endRecord (.answered (.answer i) attention inv) u) := by
      have heard := answered (.answer a) 5 attention (identityBytes i) expected (by omega) (by simp)
        ⟨kindOf 5 attention (by omega), addressed, by simp⟩
      have carried : (Expected.answer a).answerOf ([flag 5 attention, address] ++ identityBytes i) = .answer i :=
        congrArg Answer.answer (identityOf_identityBytes i)
      rwa [carried] at heard
    rw [endRecord_answer (held _) kind origin] at heard
    refine ⟨fun vacant lost => ?_, fun reachable => ?_⟩
    · rw [heard, if_neg fun either => either.elim vacant lost]
    · rw [if_pos (show (u.entry r.target).state = .vacant ∨ (u.entry r.target).state = .lost from reachable)] at heard
      have holder : holderOf a i u = stationAddresses.find? carries := holderOf_eq a i u
      refine ⟨fun b found => ?_, fun alone => ?_⟩
      · have duplicate : takeIdentity a i u = u.raising [(.duplicateIdentity,
            [byteOf a, byteOf b, rosterStateCode (s.entry b).state] ++ identityBytes i)] := by
          unfold takeIdentity
          rw [holder, found]
          rfl
        exact heard.trans (congrArg ends duplicate)
      · intro joins
        refine ⟨fun apart => ?_, fun joined => ?_⟩
        · exact heard.trans (congrArg ends (takeIdentity_held (holder.trans alone) apart))
        · intro wakes
          exact ⟨_, heard.trans (congrArg ends (takeIdentity_joins (holder.trans alone) joined)),
            becomeActive_joined i _ keys⟩

end Sys2Proof.Machine
end
